-- ==== Sys2Proof/Word.lean ====
section
/-! DEFINITION. The machine's words: scalar and vector registers, bytes, tags, and the few
bit operations every layer uses. -/
namespace Sys2Proof

/-- A scalar register (R11). -/
abbrev Word := BitVec 64

/-- A vector register (R11). -/
abbrev Vec := BitVec 2048

/-- A byte of memory. -/
abbrev Byte := BitVec 8

/-- A register's clock tag (R12): 0-13 a clock, 30 universal, 31 stale. -/
abbrev Tag := BitVec 5

/-- Tag 30: the value may be read on any clock (R12). -/
abbrev tagUniversal : Tag := 30

/-- Tag 31: the value may not be read (R12). -/
abbrev tagStale : Tag := 31

end Sys2Proof
end

