-- ==== Sys2Proof/Syntax.lean ====
section
/-! DEFINITION. The instruction set: one constructor of `Instr` for each row of spec/opcode_table.json.
194 rows are encodings of a 32-bit slot (R49-R66); 66 rows have no encoding and are the device's own
steps and the requests of the host, its peers and its surroundings (95_what_each_step_holds.md). -/
namespace Sys2Proof

/-! ## Operands of the encoded instructions -/

/-- The K field (R50): the slot's clock, or a qualifier of the innermost loop level. -/
inductive KSel where
  | clk (n : Fin 14)
  | first
  | last
  deriving DecidableEq, Repr

/-- A scalar register s0-s31. -/
abbrev SReg := Fin 32
/-- A vector register v0-v31. -/
abbrev VReg := Fin 32
/-- A feed register e0-e7. -/
abbrev EReg := Fin 8
/-- An accumulator tile a0-a15. -/
abbrev AReg := Fin 16
/-- A clock k0-k13. -/
abbrev CReg := Fin 14

/-- The 3-bit lane type T (R62). -/
inductive LaneType where
  | i8 | i16 | i32 | i64 | f16 | bf16 | f32 | f64
  deriving DecidableEq, Repr

/-- The 3-bit rounding code (R62); 111 is undefined and has no constructor. On an integer V form
`dyn` (000) is wrapping and `sat` (110) saturating (R65). -/
inductive Rnd where
  | dyn | rne | rtz | rup | rdn | rna | sat
  deriving DecidableEq, Repr

/-- The 4-bit format code (R62); 15 is reserved and has no constructor. -/
inductive Fmt4 where
  | i8 | i16 | i32 | i64 | n8 | n16 | n32 | n64 | f16 | bf16 | f32 | f64 | e4m3 | e5m2 | x128
  deriving DecidableEq, Repr

/-- VMINMAX's M codes 0-3 (R83). -/
inductive MinMaxOp where
  | minNum | maxNum | minimum | maximum
  deriving DecidableEq, Repr

/-- VCMP's M codes 0-6 (R65, R143). -/
inductive CmpOp where
  | eq | ne | lt | le | ltn | len | un
  deriving DecidableEq, Repr

/-- A lane or element width of VLANE and VGS, F[5:4] (R64). -/
inductive EWidth where
  | w8 | w16 | w32 | w64
  deriving DecidableEq, Repr

/-- The W field of LD (R53). -/
inductive LdW where
  | i8 | i16 | i32 | i64 | n8 | n16 | n32
  deriving DecidableEq, Repr

/-- The W field of ST (R53). -/
inductive StW where
  | i8 | i16 | i32 | i64
  deriving DecidableEq, Repr

/-- The class of LDT (R285): 1 to 4. -/
inductive LdtClass where
  | c1 | c2 | c3 | c4
  deriving DecidableEq, Repr

/-- The width of LDT (R285). -/
inductive LdtW where
  | byte | half | word | double | vector
  deriving DecidableEq, Repr

/-- The width of an atomic, F[5] (R287). -/
inductive AtomW where
  | w32 | w64
  deriving DecidableEq, Repr

/-- The scope of LIVE members (R292). -/
inductive Scope where
  | core | die | device | system
  deriving DecidableEq, Repr

/-- AREAD's destination, F[5:3] (R361), with the rounding code of the rounded destinations. -/
inductive AreadDst where
  | f32 (r : Rnd) | bf16 (r : Rnd) | f16 (r : Rnd) | e4m3 (r : Rnd) | e5m2 (r : Rnd) | raw
  deriving DecidableEq, Repr

/-! ## What the device's own steps and the requests carry -/

/-- An activation's stamp (R171): instant, task, index. -/
structure Stamp where
  inst : Nat
  task : Nat
  index : Nat
  deriving DecidableEq, Repr

/-- Which of the device's activations: an ordinary activation of a run, a handler activation of a run by the stamp it carries and
its number (R380), or a steward slot (R426). -/
inductive ActKey where
  | ordinary (run : Nat) (stamp : Stamp)
  | handler (run : Nat) (stamp : Stamp) (serial : Nat)
  | steward (core : Fin 4) (slot : Fin 8)
  deriving DecidableEq, Repr

/-- A task of an image (R167, R170, R312, R339, R379). -/
structure Task where
  num : Nat
  entry : Nat
  clock : Nat
  width : Nat
  feeds : Nat
  tiles : List AReg
  array : Bool
  handler : Bool
  deriving DecidableEq, Repr

/-- A program clock of an image (R175): pk0 has neither parent nor cell. -/
structure PClock where
  num : Nat
  parent : Nat
  cell : Option Nat
  deriving DecidableEq, Repr

/-- A condition cell of an image (R167, R180). -/
structure Cond where
  num : Nat
  p : BitVec 8
  pin : Bool
  ahead : Bool
  deriving DecidableEq, Repr

/-- The ORDER mode of a tensor (R233). -/
inductive Order where
  | ordered | staged | live
  deriving DecidableEq, Repr

/-- A tensor of an image: the descriptor of R233 and the access sets of R442. -/
structure Tensor where
  handle : Nat
  fmt : Fmt4
  blocked : Bool
  order : Order
  lc : Nat
  vault : Option Nat
  size : Nat
  exts : List Nat
  ntiles : Nat
  readers : Option (List Nat)
  writers : Option (List Nat)
  deriving DecidableEq, Repr

/-- Initial bytes of a tensor: the data and state sections (R46, R167). -/
structure DataSec where
  tensor : Nat
  offset : Nat
  bytes : List Byte
  deriving DecidableEq, Repr

/-- A scratch buffer of an image's plan (R167, R227, R229). -/
structure ScratchBuf where
  task : Option Nat
  bank : Nat
  offset : Nat
  size : Nat
  first : Nat
  last : Nat
  deriving DecidableEq, Repr

/-- A loadable image (R167). The manual gives the directives and no binary form: an image is their
content. -/
structure Image where
  name : List Byte
  version : Nat
  code : List Byte
  entry : Nat
  loft : Nat
  tasks : List Task
  clocks : List PClock
  conds : List Cond
  tensors : List Tensor
  data : List DataSec
  scratch : List ScratchBuf
  deriving DecidableEq, Repr

/-- A firmware image (R431): its version, its code, the public key it names and its signature. -/
structure Firmware where
  version : Nat
  code : List Byte
  signedDigest : BitVec 512
  key : List Byte
  signature : List Byte
  deriving DecidableEq, Repr

/-- A 64-byte packet (R218). -/
abbrev Packet := List Byte

/-- A tile-table entry (R235). -/
structure TileEntry where
  loft : Bool
  order : BitVec 2
  lc : BitVec 3
  w : Bool
  v : Bool
  frame : Nat
  reserved : Nat
  deriving DecidableEq, Repr

/-- An element fault of a member (R423, cause 4): its trap code, and how many elements this device had rounded, and how many
delivered to DST, when it learnt of it; of a fault in the member's contribution none (R422). -/
structure PeerFault where
  code : Nat
  rounded : Nat
  delivered : Nat
  deriving DecidableEq, Repr

/-- A peer's command and contribution to a collective (R416, R417): the member, the key and the command's number among those of
its key, `failed` the trap code of an element fault it met, `torn` that its run has been torn down (R423), and the times at which
the elements of its contribution arrived, of which only the order counts (R421; elements not listed arrived at time 0). -/
structure PeerCmd where
  device : Nat
  group : Nat
  tag : Nat
  ordinal : Nat
  op : Nat
  type : Nat
  mode : Nat
  redop : Nat
  root : Nat
  count : Nat
  src : List Byte
  failed : Option PeerFault
  torn : Bool
  times : List Nat
  deriving DecidableEq, Repr

/-! ## The instructions -/

/-- One constructor for each row of spec/opcode_table.json. Encoded rows carry the K field `k` and
the fields of their form; the stop bit belongs to the slot (`Slot`, Decode.lean). -/
inductive Instr where
  -- SALU (R97, R98)
  | add (k : KSel) (d a b : SReg)
  | sub (k : KSel) (d a b : SReg)
  | and (k : KSel) (d a b : SReg)
  | or (k : KSel) (d a b : SReg)
  | xor (k : KSel) (d a b : SReg)
  | andn (k : KSel) (d a b : SReg)
  | shl (k : KSel) (d a b : SReg)
  | shr (k : KSel) (d a b : SReg)
  | sar (k : KSel) (d a b : SReg)
  | rotr (k : KSel) (d a b : SReg)
  | min (k : KSel) (d a b : SReg)
  | max (k : KSel) (d a b : SReg)
  | minn (k : KSel) (d a b : SReg)
  | maxn (k : KSel) (d a b : SReg)
  | seq (k : KSel) (d a b : SReg)
  | sne (k : KSel) (d a b : SReg)
  | slt (k : KSel) (d a b : SReg)
  | sltn (k : KSel) (d a b : SReg)
  | sel (k : KSel) (d a b : SReg)
  | clz (k : KSel) (d a : SReg)
  | ctz (k : KSel) (d a : SReg)
  | popc (k : KSel) (d a : SReg)
  | padd (k : KSel) (d a b : SReg)
  -- SMUL (R99)
  | mul (k : KSel) (d a b : SReg)
  | mulh (k : KSel) (d a b : SReg)
  | mulhn (k : KSel) (d a b : SReg)
  | div (k : KSel) (d a b : SReg)
  | divn (k : KSel) (d a b : SReg)
  | rem (k : KSel) (d a b : SReg)
  | remn (k : KSel) (d a b : SReg)
  -- I form (R100, R101)
  | addi (k : KSel) (d a : SReg) (imm : BitVec 11)
  | andi (k : KSel) (d a : SReg) (imm : BitVec 11)
  | ori (k : KSel) (d a : SReg) (imm : BitVec 11)
  | xori (k : KSel) (d a : SReg) (imm : BitVec 11)
  | shli (k : KSel) (d a : SReg) (n : Fin 64)
  | shri (k : KSel) (d a : SReg) (n : Fin 64)
  | sari (k : KSel) (d a : SReg) (n : Fin 64)
  | slti (k : KSel) (d a : SReg) (imm : BitVec 11)
  | sltni (k : KSel) (d a : SReg) (imm : BitVec 11)
  | li (k : KSel) (d : SReg) (imm : BitVec 11)
  -- CSR (R102)
  | csrr (k : KSel) (d : SReg) (csr : Fin 2048)
  | csrw (k : KSel) (a : SReg) (csr : Fin 2048)
  | csrs (k : KSel) (a : SReg) (csr : Fin 2048)
  | csrc (k : KSel) (a : SReg) (csr : Fin 2048)
  -- control (R104-R117)
  | br (k : KSel) (disp : BitVec 21)
  | jal (k : KSel) (disp : BitVec 21)
  | jalr (k : KSel) (d a : SReg) (imm : BitVec 11)
  | loop (k : KSel) (a : SReg) (len : Fin 2048)
  | loopi (k : KSel) (cnt : Fin 1024) (len : Fin 2048)
  | lidx (k : KSel) (d : SReg) (level : Fin 6)
  | lbrk (k : KSel)
  | lnext (k : KSel)
  | ldepth (k : KSel) (d : SReg)
  | nop (k : KSel)
  | yield (k : KSel)
  | endAct (k : KSel)
  | brk (k : KSel)
  | waitGen (k : KSel) (a b : SReg)
  | waitRidge (k : KSel)
  | waitEq (k : KSel) (a b : SReg)
  | waitGe (k : KSel) (a b : SReg)
  | waitFeed (k : KSel) (a : EReg)
  | trap (k : KSel) (imm : BitVec 11)
  -- clocks (R127-R136)
  | clkon (k : KSel) (d : CReg) (a : SReg)
  | clkoff (k : KSel) (d : CReg) (a : SReg)
  | clksplit (k : KSel) (d : CReg) (a : SReg)
  | clkq (k : KSel) (d : SReg) (a : CReg)
  | clkundef (k : KSel) (d : CReg)
  | whenScalar (k : KSel) (d a : SReg)
  | whenVector (k : KSel) (d a : VReg)
  | currScalar (k : KSel) (d a : SReg)
  | currVector (k : KSel) (d a : VReg)
  | mergeScalar (k : KSel) (d a b : SReg)
  | mergeVector (k : KSel) (d a b : VReg)
  -- vector arithmetic (R142-R145)
  | vadd (k : KSel) (d a b : VReg) (t : LaneType) (m : Rnd)
  | vsub (k : KSel) (d a b : VReg) (t : LaneType) (m : Rnd)
  | vmul (k : KSel) (d a b : VReg) (t : LaneType) (m : Rnd)
  | vfma (k : KSel) (d a b : VReg) (t : LaneType) (m : Rnd)
  | vfms (k : KSel) (d a b : VReg) (t : LaneType) (m : Rnd)
  | vfnma (k : KSel) (d a b : VReg) (t : LaneType) (m : Rnd)
  | vdiv (k : KSel) (d a b : VReg) (t : LaneType) (m : Rnd)
  | vsqrt (k : KSel) (d a : VReg) (t : LaneType) (m : Rnd)
  | vminmax (k : KSel) (d a b : VReg) (t : LaneType) (m : MinMaxOp)
  | vcmp (k : KSel) (d a b : VReg) (t : LaneType) (c : CmpOp)
  | vcvt (k : KSel) (d a : VReg) (dst src : Fmt4) (r : Rnd)
  -- bitwise, shifts, unary (R146-R152)
  | vbitAnd (k : KSel) (d a b : VReg)
  | vbitOr (k : KSel) (d a b : VReg)
  | vbitXor (k : KSel) (d a b : VReg)
  | vbitAndn (k : KSel) (d a b : VReg)
  | vbitNot (k : KSel) (d a : VReg)
  | vshiftShl (k : KSel) (d a b : VReg) (t : LaneType)
  | vshiftShr (k : KSel) (d a b : VReg) (t : LaneType)
  | vshiftSar (k : KSel) (d a b : VReg) (t : LaneType)
  | vshiftRotr (k : KSel) (d a b : VReg) (t : LaneType)
  | vunaryAbs (k : KSel) (d a : VReg) (t : LaneType)
  | vunaryNeg (k : KSel) (d a : VReg) (t : LaneType)
  | vunaryClass (k : KSel) (d a : VReg) (t : LaneType)
  | vunaryGetexp (k : KSel) (d a : VReg) (t : LaneType)
  | vunaryClz (k : KSel) (d a : VReg) (t : LaneType)
  | vunaryPopc (k : KSel) (d a : VReg) (t : LaneType)
  | vunaryRcpe (k : KSel) (d a : VReg) (t : LaneType)
  | vunaryRsqe (k : KSel) (d a : VReg) (t : LaneType)
  | vscalb (k : KSel) (d a b : VReg) (t : LaneType) (m : Rnd)
  -- lanes (R153)
  | vsel (k : KSel) (d a b : VReg) (w : EWidth)
  | vbcast (k : KSel) (d : VReg) (a : SReg) (w : EWidth)
  | vext (k : KSel) (d : SReg) (a : VReg) (b : SReg) (w : EWidth)
  | vins (k : KSel) (d : VReg) (a b : SReg) (w : EWidth)
  | vperm (k : KSel) (d a b : VReg) (w : EWidth)
  | vslideup (k : KSel) (d a : VReg) (b : SReg) (w : EWidth)
  | vslidedn (k : KSel) (d a : VReg) (b : SReg) (w : EWidth)
  | viota (k : KSel) (d : VReg) (w : EWidth)
  -- reductions and exact accumulation (R154-R159)
  | vredSum (k : KSel) (d a : VReg) (t : LaneType) (r : Rnd)
  | vredMin (k : KSel) (d a : VReg) (t : LaneType) (r : Rnd)
  | vredMax (k : KSel) (d a : VReg) (t : LaneType) (r : Rnd)
  | vredAnd (k : KSel) (d a : VReg) (t : LaneType)
  | vredOr (k : KSel) (d a : VReg) (t : LaneType)
  | vredXor (k : KSel) (d a : VReg) (t : LaneType)
  | vredFsumx (k : KSel) (d a : VReg) (t : LaneType) (r : Rnd)
  | vredScan (k : KSel) (d a : VReg) (t : LaneType) (r : Rnd)
  | vxaccP32 (k : KSel) (d a b : VReg)
  | vxaccS32 (k : KSel) (d a : VReg)
  | vxaccP64 (k : KSel) (d a b : VReg)
  | vxaccS64 (k : KSel) (d a : VReg)
  | xinit (k : KSel) (d : VReg) (a : SReg)
  | xadd (k : KSel) (d a b : VReg)
  | xexpp (k : KSel) (d a b : VReg)
  | xexps (k : KSel) (d a : VReg)
  -- TASK (R203)
  | spawn (k : KSel) (d a b : SReg)
  | spawnc (k : KSel) (d a b : SReg)
  | resolve (k : KSel) (a b : SReg)
  | resolven (k : KSel) (a b : SReg)
  | launch (k : KSel) (d a b : SReg)
  -- memory (R121-R124, R282-R293)
  | ld (k : KSel) (d a : SReg) (w : LdW) (off : BitVec 8)
  | st (k : KSel) (d a : SReg) (w : StW) (off : BitVec 8)
  | vld (k : KSel) (d : VReg) (a : SReg) (off : BitVec 8)
  | vldFeedPop (k : KSel) (d : VReg) (a : EReg)
  | vst (k : KSel) (d : VReg) (a : SReg) (off : BitVec 8)
  | vstFeedPush (k : KSel) (d : VReg) (a : EReg)
  | fbyScalar (k : KSel) (d a b : SReg)
  | fbyVector (k : KSel) (d : VReg) (a : SReg) (b : VReg)
  | vlds (k : KSel) (d : VReg) (a b : SReg) (w : EWidth)
  | vsts (k : KSel) (d : VReg) (a b : SReg) (w : EWidth)
  | vgath (k : KSel) (d : VReg) (a : SReg) (b : VReg) (w : EWidth)
  | vscat (k : KSel) (d : VReg) (a : SReg) (b : VReg) (w : EWidth)
  | ldt (k : KSel) (d : Fin 32) (a : SReg) (c : LdtClass) (w : LdtW)
  | atomAdd (k : KSel) (a b : SReg) (w : AtomW)
  | atomMin (k : KSel) (a b : SReg) (w : AtomW)
  | atomMax (k : KSel) (a b : SReg) (w : AtomW)
  | atomMinn (k : KSel) (a b : SReg) (w : AtomW)
  | atomMaxn (k : KSel) (a b : SReg) (w : AtomW)
  | atomAnd (k : KSel) (a b : SReg) (w : AtomW)
  | atomOr (k : KSel) (a b : SReg) (w : AtomW)
  | atomXor (k : KSel) (a b : SReg) (w : AtomW)
  | xadd32 (k : KSel) (a b : SReg)
  | fetchadd (k : KSel) (d a b : SReg) (w : AtomW)
  | swap (k : KSel) (d a b : SReg) (w : AtomW)
  | cas (k : KSel) (d a b : SReg) (w : AtomW)
  | fetchmin (k : KSel) (d a b : SReg) (w : AtomW)
  | fetchmax (k : KSel) (d a b : SReg) (w : AtomW)
  | ldacq (k : KSel) (d a : SReg) (c : Scope)
  | strel (k : KSel) (d a : SReg) (c : Scope)
  | fence (k : KSel) (c : Scope)
  -- ENG (R296, R324, R415)
  | cpy (k : KSel) (a b : SReg)
  | cpysum (k : KSel) (d a b : SReg)
  | coll (k : KSel) (d a b : SReg)
  | pref (k : KSel) (a b : SReg)
  -- FEED (R316)
  | fbind (k : KSel) (d : EReg) (a : SReg)
  | funbind (k : KSel) (d : EReg)
  | fflush (k : KSel) (d : EReg)
  | fstat (k : KSel) (d : SReg) (a : EReg)
  -- MTX, ACC, AREAD (R345-R361)
  | mmaW0 (k : KSel) (d : AReg) (a : EReg) (b : SReg)
  | mmaW1 (k : KSel) (d : AReg) (a : EReg) (b : SReg)
  | mmasW0 (k : KSel) (d : AReg) (a : EReg) (b : SReg)
  | mmasW1 (k : KSel) (d : AReg) (a : EReg) (b : SReg)
  | wldW0 (k : KSel) (a : EReg) (b : SReg)
  | wldW1 (k : KSel) (a : EReg) (b : SReg)
  | scl (k : KSel) (a : VReg)
  | acol (k : KSel) (d : AReg) (a : VReg) (b : SReg)
  | azero (k : KSel) (d : AReg) (a : SReg)
  | anorm (k : KSel) (d : AReg) (a : SReg)
  | awrite (k : KSel) (d : AReg) (a : VReg) (b : SReg)
  | awriteAdd (k : KSel) (d : AReg) (a : VReg) (b : SReg)
  | aexp (k : KSel) (d : AReg) (a : SReg)
  | astat (k : KSel) (d : SReg) (a : AReg)
  | aread (k : KSel) (d : VReg) (a : AReg) (b : SReg) (dst : AreadDst)
  -- SYS (R394)
  | rft (k : KSel) (a b : SReg)
  | kill (k : KSel) (a b : SReg)
  | snapr (k : KSel) (d a b : SReg)
  | snapw (k : KSel) (d a b : SReg)
  | ctxsv (k : KSel) (d a b : SReg)
  | ctxld (k : KSel) (d a b : SReg)
  | ttinv (k : KSel) (a b : SReg)
  | halt (k : KSel)
  -- literal extension (R56); its K is 0000
  | literalExtension (payload : BitVec 21)
  -- steps without an encoding: the slot
  | preempt (core : Fin 32) (slot : Fin 8)
  | fixedLatencyResultLands (who : ActKey)
  | interlockedResultLands (who : ActKey) (n : Nat)
  | timedLoadLands (who : ActKey)
  | timedLoadDataArrival (who : ActKey)
  -- activations, instants, cores
  | activationRetire (run : Nat) (who : Stamp)
  | heldEffectRelease (run : Nat) (who : Stamp)
  | instantAdmission (run : Nat)
  | instantComplete (run : Nat) (inst : Nat)
  | distributorPlacement (die : Fin 4)
  | nonSpeculativeWaitExpiry (die : Fin 4)
  | preemptionLands (core : Fin 32) (slot : Fin 8)
  | forcedPreemptionPoint (core : Fin 32) (slot : Fin 8)
  | corePowerGate (core : Fin 32)
  | coreWakeComplete (core : Fin 32)
  | scratchBankCleared (core : Fin 32) (bank : Fin 16)
  | stewardWake (core : Fin 4)
  -- cells and live memory
  | cellRequestArrival (n : Nat)
  | repairNotice (n : Nat)
  | cellFold (n : Nat)
  | atomrValueDelivery (run : Nat) (who : Stamp)
  | liveStorePerformed (n : Nat)
  -- feeds, engines, array
  | feedFill (who : ActKey) (e : EReg)
  | feedDrain (who : ActKey) (e : EReg)
  | copyEngineElement (die : Fin 4) (n : Nat)
  | arrayRowEntry (core : Fin 32)
  | weightEntry (core : Fin 32)
  | bankReady (core : Fin 32)
  | busyBitClear (core : Fin 32) (tile : AReg) (row : Fin 64)
  -- queues and packets
  | start (queue : Nat)
  | grant (queue : Nat)
  | fencePacket (queue : Nat)
  | signal (queue : Nat)
  | stop (queue : Nat)
  | marker (queue : Nat)
  | remotePush (device : Nat) (tag : Nat) (handle : BitVec 32) (packet : Packet)
  | remotePushOutcome (n : Nat) (code : Nat)
  | queueResidencyChange (queue : Nat) (resident : Bool)
  -- host requests (R427)
  | imageLoad (req : Word) (image : Image)
  | firmwareImageLoad (req : Word) (fw : Firmware)
  | queuePush (req : Word) (handle : BitVec 32) (packet : Packet)
  | queueCreate (req : Word) (queue : Nat) (priority : Nat) (capacity : Nat)
  | queueDestroy (req : Word) (handle : BitVec 32)
  | map (req : Word) (run tensor tile : Nat) (entry : TileEntry)
  | memRead (req : Word) (run : Nat) (ptr : Word) (len : Nat)
  | memWrite (req : Word) (run : Nat) (ptr : Word) (bytes : List Byte)
  | keySet (req : Word) (slot : Nat) (key0 key1 : BitVec 256)
  -- collectives
  | collectiveMatch (n : Nat) (peer : PeerCmd)
  | collectiveComplete (n : Nat)
  -- the host, the surroundings, the links
  | collectiveFailure (n : Nat) (cause : Nat) (code : Nat)
  | thermalExclusion (core : Fin 32) (temp : Nat)
  | thermalReadmission (core : Fin 32) (temp : Nat)
  | woushFlitResend (port : Fin 12)
  | woushPortDown (port : Fin 12)
  | softErrorCorrection (addr : Nat)
  | scrubUncorrectable (addr : Nat)
  | warmReset (req : Word) (device : Fin 64)
  | coldReset (req : Word) (device : Fin 64)
  | attest (req : Word) (nonce : BitVec 256)
  | resync (req : Word)
  -- steps that carry nothing
  | loopPassEnd
  | handlerActivationStart
  | powerOnBoot
  | serviceStartTimeout
  | seamFlitResend
  | budgetPeriod
  deriving DecidableEq, Repr

end Sys2Proof
end

