-- ==== Sys2Proof/WellFormed.lean ====
section
/-! DEFINITION. Which terms of `Instr` stand for a defined encoding: the field rules of R52, R55, R64 to
R66, R102, R127, R133 and R350 that the operand types do not already enforce. -/
namespace Sys2Proof

/-- Whether T is "Float" (R65). -/
def floatT : LaneType → Bool
  | .f16 | .bf16 | .f32 | .f64 => true
  | .i8 | .i16 | .i32 | .i64 => false

/-- A rounding code on an integer add, subtract or multiply: 000 wrapping or 110 saturating (R65). -/
def arithModeOk (t : LaneType) (m : Rnd) : Bool :=
  floatT t || m == .dyn || m == .sat

/-- A reduction's B field: any rounding code for a float T, 000 for an integer T (R65). -/
def redModeOk (t : LaneType) (r : Rnd) : Bool := floatT t || r == .dyn

/-- The relations a lane type accepts (R65). -/
def cmpOk (t : LaneType) : CmpOp → Bool
  | .eq | .ne | .lt | .le => true
  | .ltn | .len => !floatT t
  | .un => floatT t

/-- The defined conversion pairs (R66). -/
def cvtOk (dst src : Fmt4) : Bool :=
  dst != src && dst != .x128 && (src != .x128 || dst == .f32 || dst == .f64)

/-- The assigned CSR numbers below 0x100 (R36, R373). -/
def csrAssigned (n : Nat) : Bool :=
  n == 0x000 || n == 0x001 || n == 0x002 || (0x010 ≤ n && n ≤ 0x017) || (0x020 ≤ n && n ≤ 0x02B)
    || n == 0x030 || (0x040 ≤ n && n ≤ 0x044)

/-- The writable CSRs below 0x100: FPC and VPART (R36). -/
def csrWritable (n : Nat) : Bool := n == 0x000 || n == 0x002

/-- A clock a defining slot may name: 1-13 and not the slot's own K (R127). -/
def defClockOk (k : KSel) (d : CReg) : Bool :=
  match k with
  | .clk n => d != 0 && d != n
  | _ => false

/-- A pair a CLKSPLIT may name: D 1-12, neither half the slot's own K (R127). -/
def splitClockOk (k : KSel) (d : CReg) : Bool :=
  match k with
  | .clk n => d != 0 && d.val ≤ 12 && d != n && d.val + 1 != n.val
  | _ => false

/-- K names a clock and not a qualifier (R127, R133). -/
def plainK : KSel → Bool
  | .clk _ => true
  | _ => false

/-- K names a clock other than k0, as WHEN needs (R133). -/
def whenK : KSel → Bool
  | .clk n => n != 0
  | _ => false

/-- The field rules of one instruction. -/
def Instr.wf : Instr → Bool
  | .vadd _ _ _ _ t m | .vsub _ _ _ _ t m | .vmul _ _ _ _ t m => arithModeOk t m
  | .vfma _ _ _ _ t _ | .vfms _ _ _ _ t _ | .vfnma _ _ _ _ t _ | .vdiv _ _ _ _ t _
  | .vscalb _ _ _ _ t _ => floatT t
  | .vsqrt _ _ _ t _ => floatT t
  | .vcmp _ _ _ _ t c => cmpOk t c
  | .vcvt _ _ _ dst src _ => cvtOk dst src
  | .vshiftShl _ _ _ _ t | .vshiftShr _ _ _ _ t | .vshiftSar _ _ _ _ t | .vshiftRotr _ _ _ _ t => !floatT t
  | .vunaryClass _ _ _ t | .vunaryGetexp _ _ _ t | .vunaryRcpe _ _ _ t | .vunaryRsqe _ _ _ t => floatT t
  | .vunaryClz _ _ _ t | .vunaryPopc _ _ _ t => !floatT t
  | .vredSum _ _ _ t r | .vredMin _ _ _ t r | .vredMax _ _ _ t r | .vredScan _ _ _ t r => redModeOk t r
  | .vredAnd _ _ _ t | .vredOr _ _ _ t | .vredXor _ _ _ t => !floatT t
  | .vredFsumx _ _ _ t _ => floatT t
  | .csrr _ _ c => decide (0x100 ≤ c.val) || csrAssigned c.val
  | .csrw _ _ c | .csrs _ _ c | .csrc _ _ c => decide (0x100 ≤ c.val) || csrWritable c.val
  | .loop _ _ len => len != 0
  | .loopi _ _ len => len != 0
  | .clkon k d _ | .clkoff k d _ => defClockOk k d
  | .clksplit k d _ => splitClockOk k d
  | .clkundef k d => plainK k && d != 0
  | .whenScalar k _ _ | .whenVector k _ _ => whenK k
  | .currScalar k _ _ | .currVector k _ _ => plainK k
  | .mergeScalar k _ _ _ | .mergeVector k _ _ _ => plainK k
  | .mmasW0 _ _ a _ | .mmasW1 _ _ a _ => a != 7
  | .remotePush _ _ _ p | .queuePush _ _ p => p.length == 64
  | .map _ _ _ _ _ => true
  | _ => true

/-- Whether a row has an encoding: the steps and requests have none. -/
def Instr.encoded : Instr → Bool
  | .preempt .. | .loopPassEnd | .fixedLatencyResultLands .. | .interlockedResultLands ..
  | .timedLoadLands .. | .timedLoadDataArrival .. | .handlerActivationStart | .activationRetire ..
  | .heldEffectRelease .. | .instantAdmission .. | .instantComplete .. | .distributorPlacement ..
  | .nonSpeculativeWaitExpiry .. | .preemptionLands .. | .forcedPreemptionPoint .. | .corePowerGate ..
  | .coreWakeComplete .. | .scratchBankCleared .. | .stewardWake .. | .cellRequestArrival ..
  | .repairNotice .. | .cellFold .. | .atomrValueDelivery .. | .liveStorePerformed .. | .feedFill ..
  | .feedDrain .. | .copyEngineElement .. | .arrayRowEntry .. | .weightEntry .. | .bankReady ..
  | .busyBitClear .. | .start .. | .grant .. | .fencePacket .. | .signal .. | .stop .. | .marker ..
  | .remotePush .. | .remotePushOutcome .. | .queueResidencyChange .. | .imageLoad .. | .firmwareImageLoad ..
  | .queuePush .. | .queueCreate .. | .queueDestroy .. | .map .. | .memRead .. | .memWrite .. | .keySet ..
  | .attest .. | .resync .. | .warmReset .. | .coldReset .. | .powerOnBoot | .serviceStartTimeout
  | .thermalExclusion .. | .thermalReadmission .. | .woushFlitResend .. | .woushPortDown ..
  | .seamFlitResend | .collectiveMatch .. | .collectiveComplete .. | .collectiveFailure ..
  | .softErrorCorrection .. | .scrubUncorrectable .. | .budgetPeriod => false
  | _ => true

end Sys2Proof
end

