-- ==== Sys2Proof/Decode.lean ====
section
/-! DEFINITION. Decoding a slot word (R49-R66), total on all 2^32 words, and the encoder written from the
same tables. `none` is an undefined encoding (UNDEF, step 2 of R60). Fields are numbers cut from the
word by division and remainder. -/
namespace Sys2Proof

/-- A decoded slot: its stop bit (R49) and its instruction. -/
structure Slot where
  stop : Bool
  instr : Instr
  deriving DecidableEq, Repr

/-! ### Fields and codes -/

/-- The K field (R50). -/
def kselOf (k : Nat) : KSel := if k < 14 then .clk (Fin.ofNat 14 k) else if k = 14 then .first else .last

/-- The code of a K field (R50). -/
def KSel.code : KSel → Nat
  | .clk n => n.val
  | .first => 14
  | .last => 15

/-- Bits [20:16]. -/
def fD (n : Nat) : Nat := n / 65536 % 32
/-- Bits [15:11]. -/
def fA (n : Nat) : Nat := n / 2048 % 32
/-- Bits [10:6]. -/
def fB (n : Nat) : Nat := n / 64 % 32
/-- Bits [5:0], the R form's sub-code. -/
def fF (n : Nat) : Nat := n % 64
/-- Bits [10:0], the I form's immediate and the L form's length. -/
def fImm (n : Nat) : Nat := n % 2048
/-- Bits [5:3], the V form's lane type. -/
def fT (n : Nat) : Nat := n / 8 % 8
/-- Bits [2:0], the V form's M and the C form's RM. -/
def fM (n : Nat) : Nat := n % 8
/-- Bits [10:7], the C form's DST4. -/
def fDst4 (n : Nat) : Nat := n / 128 % 16
/-- Bits [6:3], the C form's SRC4. -/
def fSrc4 (n : Nat) : Nat := n / 8 % 16
/-- Bits [10:8], the M form's W. -/
def fW (n : Nat) : Nat := n / 256 % 8
/-- Bits [7:0], the M form's offset. -/
def fOff (n : Nat) : Nat := n % 256
/-- Bits [20:11], the L form's count. -/
def fCnt (n : Nat) : Nat := n / 2048 % 1024

/-- A register s0-s31 or v0-v31 (R52). -/
def r32 (x : Nat) : Fin 32 := Fin.ofNat 32 x
/-- A feed register; a value above 7 is UNDEF (R52). -/
def er (x : Nat) : Option (Fin 8) := if x < 8 then some (Fin.ofNat 8 x) else none
/-- An accumulator tile; a value above 15 is UNDEF (R52). -/
def ar (x : Nat) : Option (Fin 16) := if x < 16 then some (Fin.ofNat 16 x) else none
/-- A clock; a value above 13 is UNDEF (R52). -/
def cr (x : Nat) : Option (Fin 14) := if x < 14 then some (Fin.ofNat 14 x) else none
/-- `x` where the unused fields are zero (R52). -/
def when0 (b : Bool) (x : Option Instr) : Option Instr := if b then x else none

/-- The code of a `LaneType` (R62). -/
def LaneType.code : LaneType → Nat
  | .i8 => 0
  | .i16 => 1
  | .i32 => 2
  | .i64 => 3
  | .f16 => 4
  | .bf16 => 5
  | .f32 => 6
  | .f64 => 7

/-- The `LaneType` of a code, none where the code is undefined (R62). -/
def laneTypeOf : Nat → Option LaneType
  | 0 => some .i8
  | 1 => some .i16
  | 2 => some .i32
  | 3 => some .i64
  | 4 => some .f16
  | 5 => some .bf16
  | 6 => some .f32
  | 7 => some .f64
  | _ => none

/-- The code of a `Rnd` (R62). -/
def Rnd.code : Rnd → Nat
  | .dyn => 0
  | .rne => 1
  | .rtz => 2
  | .rup => 3
  | .rdn => 4
  | .rna => 5
  | .sat => 6

/-- The `Rnd` of a code, none where the code is undefined (R62). -/
def rndOf : Nat → Option Rnd
  | 0 => some .dyn
  | 1 => some .rne
  | 2 => some .rtz
  | 3 => some .rup
  | 4 => some .rdn
  | 5 => some .rna
  | 6 => some .sat
  | _ => none

/-- The code of a `Fmt4` (R62). -/
def Fmt4.code : Fmt4 → Nat
  | .i8 => 0
  | .i16 => 1
  | .i32 => 2
  | .i64 => 3
  | .n8 => 4
  | .n16 => 5
  | .n32 => 6
  | .n64 => 7
  | .f16 => 8
  | .bf16 => 9
  | .f32 => 10
  | .f64 => 11
  | .e4m3 => 12
  | .e5m2 => 13
  | .x128 => 14

/-- The `Fmt4` of a code, none where the code is undefined (R62). -/
def fmt4Of : Nat → Option Fmt4
  | 0 => some .i8
  | 1 => some .i16
  | 2 => some .i32
  | 3 => some .i64
  | 4 => some .n8
  | 5 => some .n16
  | 6 => some .n32
  | 7 => some .n64
  | 8 => some .f16
  | 9 => some .bf16
  | 10 => some .f32
  | 11 => some .f64
  | 12 => some .e4m3
  | 13 => some .e5m2
  | 14 => some .x128
  | _ => none

/-- The code of a `MinMaxOp` (R65, R83). -/
def MinMaxOp.code : MinMaxOp → Nat
  | .minNum => 0
  | .maxNum => 1
  | .minimum => 2
  | .maximum => 3

/-- The `MinMaxOp` of a code, none where the code is undefined (R65, R83). -/
def minMaxOf : Nat → Option MinMaxOp
  | 0 => some .minNum
  | 1 => some .maxNum
  | 2 => some .minimum
  | 3 => some .maximum
  | _ => none

/-- The code of a `CmpOp` (R65). -/
def CmpOp.code : CmpOp → Nat
  | .eq => 0
  | .ne => 1
  | .lt => 2
  | .le => 3
  | .ltn => 4
  | .len => 5
  | .un => 6

/-- The `CmpOp` of a code, none where the code is undefined (R65). -/
def cmpOf : Nat → Option CmpOp
  | 0 => some .eq
  | 1 => some .ne
  | 2 => some .lt
  | 3 => some .le
  | 4 => some .ltn
  | 5 => some .len
  | 6 => some .un
  | _ => none

/-- The code of a `EWidth` (R64). -/
def EWidth.code : EWidth → Nat
  | .w8 => 0
  | .w16 => 1
  | .w32 => 2
  | .w64 => 3

/-- The `EWidth` of a code, none where the code is undefined (R64). -/
def ewidthOf : Nat → Option EWidth
  | 0 => some .w8
  | 1 => some .w16
  | 2 => some .w32
  | 3 => some .w64
  | _ => none

/-- The code of a `LdW` (R53). -/
def LdW.code : LdW → Nat
  | .i8 => 0
  | .i16 => 1
  | .i32 => 2
  | .i64 => 3
  | .n8 => 4
  | .n16 => 5
  | .n32 => 6

/-- The `LdW` of a code, none where the code is undefined (R53). -/
def ldWOf : Nat → Option LdW
  | 0 => some .i8
  | 1 => some .i16
  | 2 => some .i32
  | 3 => some .i64
  | 4 => some .n8
  | 5 => some .n16
  | 6 => some .n32
  | _ => none

/-- The code of a `StW` (R53). -/
def StW.code : StW → Nat
  | .i8 => 0
  | .i16 => 1
  | .i32 => 2
  | .i64 => 3

/-- The `StW` of a code, none where the code is undefined (R53). -/
def stWOf : Nat → Option StW
  | 0 => some .i8
  | 1 => some .i16
  | 2 => some .i32
  | 3 => some .i64
  | _ => none

/-- The code of a `LdtClass` (R64). -/
def LdtClass.code : LdtClass → Nat
  | .c1 => 1
  | .c2 => 2
  | .c3 => 3
  | .c4 => 4

/-- The `LdtClass` of a code, none where the code is undefined (R64). -/
def ldtClassOf : Nat → Option LdtClass
  | 1 => some .c1
  | 2 => some .c2
  | 3 => some .c3
  | 4 => some .c4
  | _ => none

/-- The code of a `LdtW` (R64). -/
def LdtW.code : LdtW → Nat
  | .byte => 0
  | .half => 1
  | .word => 2
  | .double => 3
  | .vector => 4

/-- The `LdtW` of a code, none where the code is undefined (R64). -/
def ldtWOf : Nat → Option LdtW
  | 0 => some .byte
  | 1 => some .half
  | 2 => some .word
  | 3 => some .double
  | 4 => some .vector
  | _ => none

/-- The code of a `AtomW` (R64). -/
def AtomW.code : AtomW → Nat
  | .w32 => 0
  | .w64 => 1

/-- The `AtomW` of a code, none where the code is undefined (R64). -/
def atomWOf : Nat → Option AtomW
  | 0 => some .w32
  | 1 => some .w64
  | _ => none

/-- The code of a `Scope` (R64). -/
def Scope.code : Scope → Nat
  | .core => 0
  | .die => 1
  | .device => 2
  | .system => 3

/-- The `Scope` of a code, none where the code is undefined (R64). -/
def scopeOf : Nat → Option Scope
  | 0 => some .core
  | 1 => some .die
  | 2 => some .device
  | 3 => some .system
  | _ => none

/-- The sub-code F of AREAD: destination [5:3] and rounding code [2:0], 000 for raw (R64). -/
def AreadDst.code : AreadDst → Nat
  | .f32 r => r.code
  | .bf16 r => 8 + r.code
  | .f16 r => 16 + r.code
  | .e4m3 r => 24 + r.code
  | .e5m2 r => 32 + r.code
  | .raw => 40

/-- AREAD's destination and rounding from F (R64). -/
def areadDstOf (f : Nat) : Option AreadDst :=
  match f / 8 with
  | 0 => (rndOf (f % 8)).map .f32
  | 1 => (rndOf (f % 8)).map .bf16
  | 2 => (rndOf (f % 8)).map .f16
  | 3 => (rndOf (f % 8)).map .e4m3
  | 4 => (rndOf (f % 8)).map .e5m2
  | 5 => if f % 8 = 0 then some .raw else none
  | _ => none

/-! ### The groups (R63-R66) -/

/-- OP 0x00, SALU (R64). -/
def decSalu (k : KSel) (n : Nat) : Option Instr :=
  match fF n with
  | 0 => some (.add k (r32 (fD n)) (r32 (fA n)) (r32 (fB n)))
  | 1 => some (.sub k (r32 (fD n)) (r32 (fA n)) (r32 (fB n)))
  | 2 => some (.and k (r32 (fD n)) (r32 (fA n)) (r32 (fB n)))
  | 3 => some (.or k (r32 (fD n)) (r32 (fA n)) (r32 (fB n)))
  | 4 => some (.xor k (r32 (fD n)) (r32 (fA n)) (r32 (fB n)))
  | 5 => some (.andn k (r32 (fD n)) (r32 (fA n)) (r32 (fB n)))
  | 6 => some (.shl k (r32 (fD n)) (r32 (fA n)) (r32 (fB n)))
  | 7 => some (.shr k (r32 (fD n)) (r32 (fA n)) (r32 (fB n)))
  | 8 => some (.sar k (r32 (fD n)) (r32 (fA n)) (r32 (fB n)))
  | 9 => some (.rotr k (r32 (fD n)) (r32 (fA n)) (r32 (fB n)))
  | 10 => some (.min k (r32 (fD n)) (r32 (fA n)) (r32 (fB n)))
  | 11 => some (.max k (r32 (fD n)) (r32 (fA n)) (r32 (fB n)))
  | 12 => some (.minn k (r32 (fD n)) (r32 (fA n)) (r32 (fB n)))
  | 13 => some (.maxn k (r32 (fD n)) (r32 (fA n)) (r32 (fB n)))
  | 14 => some (.seq k (r32 (fD n)) (r32 (fA n)) (r32 (fB n)))
  | 15 => some (.sne k (r32 (fD n)) (r32 (fA n)) (r32 (fB n)))
  | 16 => some (.slt k (r32 (fD n)) (r32 (fA n)) (r32 (fB n)))
  | 17 => some (.sltn k (r32 (fD n)) (r32 (fA n)) (r32 (fB n)))
  | 18 => some (.sel k (r32 (fD n)) (r32 (fA n)) (r32 (fB n)))
  | 19 => when0 (fB n == 0) (some (.clz k (r32 (fD n)) (r32 (fA n))))
  | 20 => when0 (fB n == 0) (some (.ctz k (r32 (fD n)) (r32 (fA n))))
  | 21 => when0 (fB n == 0) (some (.popc k (r32 (fD n)) (r32 (fA n))))
  | 22 => some (.padd k (r32 (fD n)) (r32 (fA n)) (r32 (fB n)))
  | _ => none

/-- OP 0x01, SMUL (R64). -/
def decSmul (k : KSel) (n : Nat) : Option Instr :=
  match fF n with
  | 0 => some (.mul k (r32 (fD n)) (r32 (fA n)) (r32 (fB n)))
  | 1 => some (.mulh k (r32 (fD n)) (r32 (fA n)) (r32 (fB n)))
  | 2 => some (.mulhn k (r32 (fD n)) (r32 (fA n)) (r32 (fB n)))
  | 3 => some (.div k (r32 (fD n)) (r32 (fA n)) (r32 (fB n)))
  | 4 => some (.divn k (r32 (fD n)) (r32 (fA n)) (r32 (fB n)))
  | 5 => some (.rem k (r32 (fD n)) (r32 (fA n)) (r32 (fB n)))
  | 6 => some (.remn k (r32 (fD n)) (r32 (fA n)) (r32 (fB n)))
  | _ => none

/-- OP 0x15, LCTL (R64). -/
def decLctl (k : KSel) (n : Nat) : Option Instr :=
  match fF n with
  | 0 => when0 (fB n == 0 && fA n < 6) (some (.lidx k (r32 (fD n)) (Fin.ofNat 6 (fA n))))
  | 1 => when0 (fD n == 0 && fA n == 0 && fB n == 0) (some (.lbrk k))
  | 2 => when0 (fD n == 0 && fA n == 0 && fB n == 0) (some (.lnext k))
  | 3 => when0 (fA n == 0 && fB n == 0) (some (.ldepth k (r32 (fD n))))
  | _ => none

/-- OP 0x16, the SEQ group (R64). -/
def decSeq (k : KSel) (n : Nat) : Option Instr :=
  match fF n with
  | 0 => when0 (fD n == 0 && fA n == 0 && fB n == 0) (some (.nop k))
  | 1 => when0 (fD n == 0 && fA n == 0 && fB n == 0) (some (.yield k))
  | 2 => when0 (fD n == 0 && fA n == 0 && fB n == 0) (some (.endAct k))
  | 3 => when0 (fD n == 0 && fA n == 0 && fB n == 0) (some (.brk k))
  | _ => none

/-- OP 0x17, WAIT (R64, R118). -/
def decWait (k : KSel) (n : Nat) : Option Instr :=
  match fF n with
  | 0 => when0 (fD n == 0) (some (.waitGen k (r32 (fA n)) (r32 (fB n))))
  | 1 => when0 (fD n == 0 && fA n == 0 && fB n == 0) (some (.waitRidge k))
  | 2 => when0 (fD n == 0) (some (.waitEq k (r32 (fA n)) (r32 (fB n))))
  | 3 => when0 (fD n == 0) (some (.waitGe k (r32 (fA n)) (r32 (fB n))))
  | 4 => when0 (fD n == 0 && fB n == 0) ((er (fA n)).map (.waitFeed k))
  | _ => none

/-- OP 0x19, CLK (R64, R127). -/
def decClk (k : KSel) (n : Nat) : Option Instr :=
  match fF n with
  | 0 => when0 (fB n == 0) ((cr (fD n)).map (fun d => .clkon k d (r32 (fA n))))
  | 1 => when0 (fB n == 0) ((cr (fD n)).map (fun d => .clkoff k d (r32 (fA n))))
  | 2 => when0 (fB n == 0) ((cr (fD n)).map (fun d => .clksplit k d (r32 (fA n))))
  | 3 => when0 (fB n == 0) ((cr (fA n)).map (fun a => .clkq k (r32 (fD n)) a))
  | 4 => when0 (fA n == 0 && fB n == 0) ((cr (fD n)).map (.clkundef k))
  | _ => none

/-- OP 0x1A, RETAG (R64, R133). -/
def decRetag (k : KSel) (n : Nat) : Option Instr :=
  match fF n with
  | 0 => when0 (fB n == 0) (some (.whenScalar k (r32 (fD n)) (r32 (fA n))))
  | 1 => when0 (fB n == 0) (some (.whenVector k (r32 (fD n)) (r32 (fA n))))
  | 2 => when0 (fB n == 0) (some (.currScalar k (r32 (fD n)) (r32 (fA n))))
  | 3 => when0 (fB n == 0) (some (.currVector k (r32 (fD n)) (r32 (fA n))))
  | _ => none

/-- OP 0x1B, MERGE (R64). -/
def decMerge (k : KSel) (n : Nat) : Option Instr :=
  match fF n with
  | 0 => some (.mergeScalar k (r32 (fD n)) (r32 (fA n)) (r32 (fB n)))
  | 1 => some (.mergeVector k (r32 (fD n)) (r32 (fA n)) (r32 (fB n)))
  | _ => none

/-- OP 0x1C, VADD (R65). -/
def decVadd (k : KSel) (n : Nat) : Option Instr :=
  do let t ← laneTypeOf (fT n); let m ← rndOf (fM n); some (.vadd k (r32 (fD n)) (r32 (fA n)) (r32 (fB n)) t m)

/-- OP 0x1D, VSUB (R65). -/
def decVsub (k : KSel) (n : Nat) : Option Instr :=
  do let t ← laneTypeOf (fT n); let m ← rndOf (fM n); some (.vsub k (r32 (fD n)) (r32 (fA n)) (r32 (fB n)) t m)

/-- OP 0x1E, VMUL (R65). -/
def decVmul (k : KSel) (n : Nat) : Option Instr :=
  do let t ← laneTypeOf (fT n); let m ← rndOf (fM n); some (.vmul k (r32 (fD n)) (r32 (fA n)) (r32 (fB n)) t m)

/-- OP 0x1F, VFMA (R65). -/
def decVfma (k : KSel) (n : Nat) : Option Instr :=
  do let t ← laneTypeOf (fT n); let m ← rndOf (fM n); some (.vfma k (r32 (fD n)) (r32 (fA n)) (r32 (fB n)) t m)

/-- OP 0x20, VFMS (R65). -/
def decVfms (k : KSel) (n : Nat) : Option Instr :=
  do let t ← laneTypeOf (fT n); let m ← rndOf (fM n); some (.vfms k (r32 (fD n)) (r32 (fA n)) (r32 (fB n)) t m)

/-- OP 0x21, VFNMA (R65). -/
def decVfnma (k : KSel) (n : Nat) : Option Instr :=
  do let t ← laneTypeOf (fT n); let m ← rndOf (fM n); some (.vfnma k (r32 (fD n)) (r32 (fA n)) (r32 (fB n)) t m)

/-- OP 0x22, VDIV (R65). -/
def decVdiv (k : KSel) (n : Nat) : Option Instr :=
  do let t ← laneTypeOf (fT n); let m ← rndOf (fM n); some (.vdiv k (r32 (fD n)) (r32 (fA n)) (r32 (fB n)) t m)

/-- OP 0x23, VSQRT (R65). -/
def decVsqrt (k : KSel) (n : Nat) : Option Instr :=
  when0 (fB n == 0) (do let t ← laneTypeOf (fT n); let m ← rndOf (fM n); some (.vsqrt k (r32 (fD n)) (r32 (fA n)) t m))

/-- OP 0x24, VMINMAX (R65). -/
def decVminmax (k : KSel) (n : Nat) : Option Instr :=
  do let t ← laneTypeOf (fT n); let m ← minMaxOf (fM n); some (.vminmax k (r32 (fD n)) (r32 (fA n)) (r32 (fB n)) t m)

/-- OP 0x25, VCMP (R65). -/
def decVcmp (k : KSel) (n : Nat) : Option Instr :=
  do let t ← laneTypeOf (fT n); let m ← cmpOf (fM n); some (.vcmp k (r32 (fD n)) (r32 (fA n)) (r32 (fB n)) t m)

/-- OP 0x26, VCVT (R66). -/
def decVcvt (k : KSel) (n : Nat) : Option Instr :=
  do let d ← fmt4Of (fDst4 n); let s ← fmt4Of (fSrc4 n); let r ← rndOf (fM n); some (.vcvt k (r32 (fD n)) (r32 (fA n)) d s r)

/-- OP 0x27, VBIT (R65). -/
def decVbit (k : KSel) (n : Nat) : Option Instr :=
  match fF n with
  | 0 => some (.vbitAnd k (r32 (fD n)) (r32 (fA n)) (r32 (fB n)))
  | 1 => some (.vbitOr k (r32 (fD n)) (r32 (fA n)) (r32 (fB n)))
  | 2 => some (.vbitXor k (r32 (fD n)) (r32 (fA n)) (r32 (fB n)))
  | 3 => some (.vbitAndn k (r32 (fD n)) (r32 (fA n)) (r32 (fB n)))
  | 4 => when0 (fB n == 0) (some (.vbitNot k (r32 (fD n)) (r32 (fA n))))
  | _ => none

/-- OP 0x28, VSHIFT (R65). -/
def decVshift (k : KSel) (n : Nat) : Option Instr :=
  (laneTypeOf (fT n)).bind fun t =>
  match fM n with
  | 0 => some (.vshiftShl k (r32 (fD n)) (r32 (fA n)) (r32 (fB n)) t)
  | 1 => some (.vshiftShr k (r32 (fD n)) (r32 (fA n)) (r32 (fB n)) t)
  | 2 => some (.vshiftSar k (r32 (fD n)) (r32 (fA n)) (r32 (fB n)) t)
  | 3 => some (.vshiftRotr k (r32 (fD n)) (r32 (fA n)) (r32 (fB n)) t)
  | _ => none

/-- OP 0x29, VUNARY: the operation is the B field, M 000 (R65). -/
def decVunary (k : KSel) (n : Nat) : Option Instr :=
  (laneTypeOf (fT n)).bind fun t => when0 (fM n == 0) (
  match fB n with
  | 0 => some (.vunaryAbs k (r32 (fD n)) (r32 (fA n)) t)
  | 1 => some (.vunaryNeg k (r32 (fD n)) (r32 (fA n)) t)
  | 2 => some (.vunaryClass k (r32 (fD n)) (r32 (fA n)) t)
  | 3 => some (.vunaryGetexp k (r32 (fD n)) (r32 (fA n)) t)
  | 4 => some (.vunaryClz k (r32 (fD n)) (r32 (fA n)) t)
  | 5 => some (.vunaryPopc k (r32 (fD n)) (r32 (fA n)) t)
  | 6 => some (.vunaryRcpe k (r32 (fD n)) (r32 (fA n)) t)
  | 7 => some (.vunaryRsqe k (r32 (fD n)) (r32 (fA n)) t)
  | _ => none)

/-- OP 0x2A, VSCALB (R65). -/
def decVscalb (k : KSel) (n : Nat) : Option Instr :=
  do let t ← laneTypeOf (fT n); let m ← rndOf (fM n); some (.vscalb k (r32 (fD n)) (r32 (fA n)) (r32 (fB n)) t m)

/-- OP 0x2B, VLANE: width F[5:4], operation F[3:0] (R64, R153). -/
def decVlane (k : KSel) (n : Nat) : Option Instr :=
  (ewidthOf (fF n / 16)).bind fun w =>
  match fF n % 16 with
  | 0 => some (.vsel k (r32 (fD n)) (r32 (fA n)) (r32 (fB n)) w)
  | 1 => when0 (fB n == 0) (some (.vbcast k (r32 (fD n)) (r32 (fA n)) w))
  | 2 => some (.vext k (r32 (fD n)) (r32 (fA n)) (r32 (fB n)) w)
  | 3 => some (.vins k (r32 (fD n)) (r32 (fA n)) (r32 (fB n)) w)
  | 4 => some (.vperm k (r32 (fD n)) (r32 (fA n)) (r32 (fB n)) w)
  | 5 => some (.vslideup k (r32 (fD n)) (r32 (fA n)) (r32 (fB n)) w)
  | 6 => some (.vslidedn k (r32 (fD n)) (r32 (fA n)) (r32 (fB n)) w)
  | 7 => when0 (fA n == 0 && fB n == 0) (some (.viota k (r32 (fD n)) w))
  | _ => none

/-- OP 0x2C, VRED: a rounding code in B[2:0] with B[4:3] zero (R65). -/
def decVred (k : KSel) (n : Nat) : Option Instr :=
  (laneTypeOf (fT n)).bind fun t =>
  match fM n with
  | 0 => (rndOf (fB n)).map (.vredSum k (r32 (fD n)) (r32 (fA n)) t)
  | 1 => (rndOf (fB n)).map (.vredMin k (r32 (fD n)) (r32 (fA n)) t)
  | 2 => (rndOf (fB n)).map (.vredMax k (r32 (fD n)) (r32 (fA n)) t)
  | 3 => when0 (fB n == 0) (some (.vredAnd k (r32 (fD n)) (r32 (fA n)) t))
  | 4 => when0 (fB n == 0) (some (.vredOr k (r32 (fD n)) (r32 (fA n)) t))
  | 5 => when0 (fB n == 0) (some (.vredXor k (r32 (fD n)) (r32 (fA n)) t))
  | 6 => (rndOf (fB n)).map (.vredFsumx k (r32 (fD n)) (r32 (fA n)) t)
  | 7 => (rndOf (fB n)).map (.vredScan k (r32 (fD n)) (r32 (fA n)) t)
  | _ => none

/-- OP 0x2D, VXACC: T 000 (R65, R156). -/
def decVxacc (k : KSel) (n : Nat) : Option Instr :=
  match fF n with
  | 0 => some (.vxaccP32 k (r32 (fD n)) (r32 (fA n)) (r32 (fB n)))
  | 1 => when0 (fB n == 0) (some (.vxaccS32 k (r32 (fD n)) (r32 (fA n))))
  | 2 => some (.vxaccP64 k (r32 (fD n)) (r32 (fA n)) (r32 (fB n)))
  | 3 => when0 (fB n == 0) (some (.vxaccS64 k (r32 (fD n)) (r32 (fA n))))
  | 4 => when0 (fB n == 0) (some (.xinit k (r32 (fD n)) (r32 (fA n))))
  | 5 => some (.xadd k (r32 (fD n)) (r32 (fA n)) (r32 (fB n)))
  | 6 => some (.xexpp k (r32 (fD n)) (r32 (fA n)) (r32 (fB n)))
  | 7 => when0 (fB n == 0) (some (.xexps k (r32 (fD n)) (r32 (fA n))))
  | _ => none

/-- OP 0x2E, TASK (R64, R203). -/
def decTask (k : KSel) (n : Nat) : Option Instr :=
  match fF n with
  | 0 => some (.spawn k (r32 (fD n)) (r32 (fA n)) (r32 (fB n)))
  | 1 => some (.spawnc k (r32 (fD n)) (r32 (fA n)) (r32 (fB n)))
  | 2 => when0 (fD n == 0) (some (.resolve k (r32 (fA n)) (r32 (fB n))))
  | 3 => when0 (fD n == 0) (some (.resolven k (r32 (fA n)) (r32 (fB n))))
  | 4 => some (.launch k (r32 (fD n)) (r32 (fA n)) (r32 (fB n)))
  | _ => none

/-- OP 0x2F, LD (R53). -/
def decLd (k : KSel) (n : Nat) : Option Instr :=
  (ldWOf (fW n)).map (fun w => .ld k (r32 (fD n)) (r32 (fA n)) w (BitVec.ofNat 8 (fOff n)))

/-- OP 0x30, ST (R53). -/
def decSt (k : KSel) (n : Nat) : Option Instr :=
  (stWOf (fW n)).map (fun w => .st k (r32 (fD n)) (r32 (fA n)) w (BitVec.ofNat 8 (fOff n)))

/-- OP 0x31, VLD and its feed form (R53). -/
def decVld (k : KSel) (n : Nat) : Option Instr :=
  match fW n with
  | 0 => some (.vld k (r32 (fD n)) (r32 (fA n)) (BitVec.ofNat 8 (fOff n)))
  | 1 => when0 (fOff n == 0) ((er (fA n)).map (.vldFeedPop k (r32 (fD n))))
  | _ => none

/-- OP 0x32, VST and its feed form (R53). -/
def decVst (k : KSel) (n : Nat) : Option Instr :=
  match fW n with
  | 0 => some (.vst k (r32 (fD n)) (r32 (fA n)) (BitVec.ofNat 8 (fOff n)))
  | 1 => when0 (fOff n == 0) ((er (fA n)).map (.vstFeedPush k (r32 (fD n))))
  | _ => none

/-- OP 0x33, FBY (R124). -/
def decFby (k : KSel) (n : Nat) : Option Instr :=
  match fF n with
  | 0 => some (.fbyScalar k (r32 (fD n)) (r32 (fA n)) (r32 (fB n)))
  | 1 => some (.fbyVector k (r32 (fD n)) (r32 (fA n)) (r32 (fB n)))
  | _ => none

/-- OP 0x34, VGS: width F[5:4], operation F[3:0] (R64). -/
def decVgs (k : KSel) (n : Nat) : Option Instr :=
  (ewidthOf (fF n / 16)).bind fun w =>
  match fF n % 16 with
  | 0 => some (.vlds k (r32 (fD n)) (r32 (fA n)) (r32 (fB n)) w)
  | 1 => some (.vsts k (r32 (fD n)) (r32 (fA n)) (r32 (fB n)) w)
  | 2 => some (.vgath k (r32 (fD n)) (r32 (fA n)) (r32 (fB n)) w)
  | 3 => some (.vscat k (r32 (fD n)) (r32 (fA n)) (r32 (fB n)) w)
  | _ => none

/-- OP 0x35, LDT: class F[5:3], width F[2:0] (R64). -/
def decLdt (k : KSel) (n : Nat) : Option Instr :=
  when0 (fB n == 0) (do let c ← ldtClassOf (fF n / 8); let w ← ldtWOf (fF n % 8); some (.ldt k (r32 (fD n)) (r32 (fA n)) c w))

/-- OP 0x36, ATOM: width F[5], F[4] zero, operation F[3:0] (R64). -/
def decAtom (k : KSel) (n : Nat) : Option Instr :=
  when0 (fD n == 0 && fF n / 16 % 2 == 0) ((atomWOf (fF n / 32)).bind fun w =>
  match fF n % 16 with
  | 0 => some (.atomAdd k (r32 (fA n)) (r32 (fB n)) w)
  | 1 => some (.atomMin k (r32 (fA n)) (r32 (fB n)) w)
  | 2 => some (.atomMax k (r32 (fA n)) (r32 (fB n)) w)
  | 3 => some (.atomMinn k (r32 (fA n)) (r32 (fB n)) w)
  | 4 => some (.atomMaxn k (r32 (fA n)) (r32 (fB n)) w)
  | 5 => some (.atomAnd k (r32 (fA n)) (r32 (fB n)) w)
  | 6 => some (.atomOr k (r32 (fA n)) (r32 (fB n)) w)
  | 7 => some (.atomXor k (r32 (fA n)) (r32 (fB n)) w)
  | 8 => if w = .w32 then some (.xadd32 k (r32 (fA n)) (r32 (fB n))) else none
  | _ => none)

/-- OP 0x37, ATOMR: width F[5], F[4] zero, operation F[3:0] (R64). -/
def decAtomr (k : KSel) (n : Nat) : Option Instr :=
  when0 (fF n / 16 % 2 == 0) ((atomWOf (fF n / 32)).bind fun w =>
  match fF n % 16 with
  | 0 => some (.fetchadd k (r32 (fD n)) (r32 (fA n)) (r32 (fB n)) w)
  | 1 => some (.swap k (r32 (fD n)) (r32 (fA n)) (r32 (fB n)) w)
  | 2 => some (.cas k (r32 (fD n)) (r32 (fA n)) (r32 (fB n)) w)
  | 3 => some (.fetchmin k (r32 (fD n)) (r32 (fA n)) (r32 (fB n)) w)
  | 4 => some (.fetchmax k (r32 (fD n)) (r32 (fA n)) (r32 (fB n)) w)
  | _ => none)

/-- OP 0x38, LIVE: scope F[5:3], operation F[2:0] (R64, R292). -/
def decLive (k : KSel) (n : Nat) : Option Instr :=
  (scopeOf (fF n / 8)).bind fun c =>
  match fF n % 8 with
  | 0 => when0 (fB n == 0) (some (.ldacq k (r32 (fD n)) (r32 (fA n)) c))
  | 1 => when0 (fB n == 0) (some (.strel k (r32 (fD n)) (r32 (fA n)) c))
  | 2 => when0 (fD n == 0 && fA n == 0 && fB n == 0) (some (.fence k c))
  | _ => none

/-- OP 0x39, ENG (R64). -/
def decEng (k : KSel) (n : Nat) : Option Instr :=
  match fF n with
  | 0 => when0 (fD n == 0) (some (.cpy k (r32 (fA n)) (r32 (fB n))))
  | 1 => some (.cpysum k (r32 (fD n)) (r32 (fA n)) (r32 (fB n)))
  | 2 => some (.coll k (r32 (fD n)) (r32 (fA n)) (r32 (fB n)))
  | 3 => when0 (fD n == 0) (some (.pref k (r32 (fA n)) (r32 (fB n))))
  | _ => none

/-- OP 0x3A, FEED (R64, R316). -/
def decFeed (k : KSel) (n : Nat) : Option Instr :=
  match fF n with
  | 0 => when0 (fB n == 0) ((er (fD n)).map (fun d => .fbind k d (r32 (fA n))))
  | 1 => when0 (fA n == 0 && fB n == 0) ((er (fD n)).map (.funbind k))
  | 2 => when0 (fA n == 0 && fB n == 0) ((er (fD n)).map (.fflush k))
  | 3 => when0 (fB n == 0) ((er (fA n)).map (.fstat k (r32 (fD n))))
  | _ => none

/-- OP 0x3B, MTX (R64). -/
def decMtx (k : KSel) (n : Nat) : Option Instr :=
  match fF n with
  | 0 => do let d ← ar (fD n); let a ← er (fA n); some (.mmaW0 k d a (r32 (fB n)))
  | 1 => do let d ← ar (fD n); let a ← er (fA n); some (.mmaW1 k d a (r32 (fB n)))
  | 2 => do let d ← ar (fD n); let a ← er (fA n); some (.mmasW0 k d a (r32 (fB n)))
  | 3 => do let d ← ar (fD n); let a ← er (fA n); some (.mmasW1 k d a (r32 (fB n)))
  | 4 => when0 (fD n == 0) ((er (fA n)).map (fun a => .wldW0 k a (r32 (fB n))))
  | 5 => when0 (fD n == 0) ((er (fA n)).map (fun a => .wldW1 k a (r32 (fB n))))
  | 6 => when0 (fD n == 0 && fB n == 0) (some (.scl k (r32 (fA n))))
  | 7 => (ar (fD n)).map (fun d => .acol k d (r32 (fA n)) (r32 (fB n)))
  | _ => none

/-- OP 0x3C, ACC (R64). -/
def decAcc (k : KSel) (n : Nat) : Option Instr :=
  match fF n with
  | 0 => when0 (fB n == 0) ((ar (fD n)).map (fun d => .azero k d (r32 (fA n))))
  | 1 => when0 (fB n == 0) ((ar (fD n)).map (fun d => .anorm k d (r32 (fA n))))
  | 2 => (ar (fD n)).map (fun d => .awrite k d (r32 (fA n)) (r32 (fB n)))
  | 3 => (ar (fD n)).map (fun d => .awriteAdd k d (r32 (fA n)) (r32 (fB n)))
  | 4 => when0 (fB n == 0) ((ar (fD n)).map (fun d => .aexp k d (r32 (fA n))))
  | 5 => when0 (fB n == 0) ((ar (fA n)).map (fun a => .astat k (r32 (fD n)) a))
  | _ => none

/-- OP 0x3D, SYS (R64, R394). -/
def decSys (k : KSel) (n : Nat) : Option Instr :=
  match fF n with
  | 0 => when0 (fD n == 0) (some (.rft k (r32 (fA n)) (r32 (fB n))))
  | 1 => when0 (fD n == 0) (some (.kill k (r32 (fA n)) (r32 (fB n))))
  | 2 => some (.snapr k (r32 (fD n)) (r32 (fA n)) (r32 (fB n)))
  | 3 => some (.snapw k (r32 (fD n)) (r32 (fA n)) (r32 (fB n)))
  | 4 => some (.ctxsv k (r32 (fD n)) (r32 (fA n)) (r32 (fB n)))
  | 5 => some (.ctxld k (r32 (fD n)) (r32 (fA n)) (r32 (fB n)))
  | 6 => when0 (fD n == 0) (some (.ttinv k (r32 (fA n)) (r32 (fB n))))
  | 7 => when0 (fD n == 0 && fA n == 0 && fB n == 0) (some (.halt k))
  | _ => none

/-- OP 0x3E, AREAD (R64). -/
def decAread (k : KSel) (n : Nat) : Option Instr :=
  do let a ← ar (fA n); let t ← areadDstOf (fF n); some (.aread k (r32 (fD n)) a (r32 (fB n)) t)

/-- The opcode map (R63): the instruction of clock field `k`, major opcode `op` and the 21 bits `n`. -/
def decodeOp (k : KSel) (op n : Nat) : Option Instr :=
  match op with
  | 0 => decSalu k n
  | 1 => decSmul k n
  | 2 => some (.addi k (r32 (fD n)) (r32 (fA n)) (BitVec.ofNat 11 (fImm n)))
  | 3 => some (.andi k (r32 (fD n)) (r32 (fA n)) (BitVec.ofNat 11 (fImm n)))
  | 4 => some (.ori k (r32 (fD n)) (r32 (fA n)) (BitVec.ofNat 11 (fImm n)))
  | 5 => some (.xori k (r32 (fD n)) (r32 (fA n)) (BitVec.ofNat 11 (fImm n)))
  | 6 => when0 (fImm n < 64) (some (.shli k (r32 (fD n)) (r32 (fA n)) (Fin.ofNat 64 (fImm n))))
  | 7 => when0 (fImm n < 64) (some (.shri k (r32 (fD n)) (r32 (fA n)) (Fin.ofNat 64 (fImm n))))
  | 8 => when0 (fImm n < 64) (some (.sari k (r32 (fD n)) (r32 (fA n)) (Fin.ofNat 64 (fImm n))))
  | 9 => some (.slti k (r32 (fD n)) (r32 (fA n)) (BitVec.ofNat 11 (fImm n)))
  | 10 => some (.sltni k (r32 (fD n)) (r32 (fA n)) (BitVec.ofNat 11 (fImm n)))
  | 11 => when0 (fA n == 0) (some (.li k (r32 (fD n)) (BitVec.ofNat 11 (fImm n))))
  | 12 => when0 (fA n == 0) (some (.csrr k (r32 (fD n)) (Fin.ofNat 2048 (fImm n))))
  | 13 => when0 (fD n == 0) (some (.csrw k (r32 (fA n)) (Fin.ofNat 2048 (fImm n))))
  | 14 => when0 (fD n == 0) (some (.csrs k (r32 (fA n)) (Fin.ofNat 2048 (fImm n))))
  | 15 => when0 (fD n == 0) (some (.csrc k (r32 (fA n)) (Fin.ofNat 2048 (fImm n))))
  | 16 => some (.br k (BitVec.ofNat 21 n))
  | 17 => some (.jal k (BitVec.ofNat 21 n))
  | 18 => some (.jalr k (r32 (fD n)) (r32 (fA n)) (BitVec.ofNat 11 (fImm n)))
  | 19 => when0 (fD n == 0) (some (.loop k (r32 (fA n)) (Fin.ofNat 2048 (fImm n))))
  | 20 => some (.loopi k (Fin.ofNat 1024 (fCnt n)) (Fin.ofNat 2048 (fImm n)))
  | 21 => decLctl k n
  | 22 => decSeq k n
  | 23 => decWait k n
  | 24 => when0 (fD n == 0 && fA n == 0) (some (.trap k (BitVec.ofNat 11 (fImm n))))
  | 25 => decClk k n
  | 26 => decRetag k n
  | 27 => decMerge k n
  | 28 => decVadd k n
  | 29 => decVsub k n
  | 30 => decVmul k n
  | 31 => decVfma k n
  | 32 => decVfms k n
  | 33 => decVfnma k n
  | 34 => decVdiv k n
  | 35 => decVsqrt k n
  | 36 => decVminmax k n
  | 37 => decVcmp k n
  | 38 => decVcvt k n
  | 39 => decVbit k n
  | 40 => decVshift k n
  | 41 => decVunary k n
  | 42 => decVscalb k n
  | 43 => decVlane k n
  | 44 => decVred k n
  | 45 => decVxacc k n
  | 46 => decTask k n
  | 47 => decLd k n
  | 48 => decSt k n
  | 49 => decVld k n
  | 50 => decVst k n
  | 51 => decFby k n
  | 52 => decVgs k n
  | 53 => decLdt k n
  | 54 => decAtom k n
  | 55 => decAtomr k n
  | 56 => decLive k n
  | 57 => decEng k n
  | 58 => decFeed k n
  | 59 => decMtx k n
  | 60 => decAcc k n
  | 61 => decSys k n
  | 62 => decAread k n
  | 63 => when0 (k == .clk 0) (some (.literalExtension (BitVec.ofNat 21 n)))
  | _ => none

/-- The instruction of a slot word, `none` where the encoding is undefined (UNDEF): the opcode map, the
sub-codes and the field rules (R52, R53, R55, R56, R62-R66). -/
def decodeSlotNat (w : Nat) : Option Slot :=
  match decodeOp (kselOf (w / 134217728 % 16)) (w / 2097152 % 64) (w % 2097152) with
  | some i => if i.wf then some { stop := w / 2147483648 % 2 == 1, instr := i } else none
  | none => none

/-- Decoding is total on every 32-bit slot word (R63). -/
def decodeWord (w : BitVec 32) : Option Slot := decodeSlotNat w.toNat

/-- A slot word as the device stores it: four bytes, little-endian (R4, R21). -/
def wordOfBytes : List Byte → Option (BitVec 32)
  | [b0, b1, b2, b3] =>
    some (BitVec.ofNat 32 (b0.toNat + 256 * b1.toNat + 65536 * b2.toNat + 16777216 * b3.toNat))
  | _ => none

/-- The four bytes of a slot word, little-endian (R4, R21). -/
def bytesOfWord (w : BitVec 32) : List Byte :=
  [BitVec.ofNat 8 w.toNat, BitVec.ofNat 8 (w.toNat / 256), BitVec.ofNat 8 (w.toNat / 65536),
    BitVec.ofNat 8 (w.toNat / 16777216)]

/-- Decoding the four bytes of a slot. -/
def decodeBytes (bs : List Byte) : Option Slot := (wordOfBytes bs).bind decodeWord

/-- The instruction this decoder reads from the table's word: every encoded row is one 32-bit slot, stored
little-endian. -/
def decodeTableWord (_nbits w : Nat) : Option Instr :=
  (decodeBytes (bytesOfWord (BitVec.ofNat 32 w))).map (·.instr)

/-! ### The encoder -/

/-- The 21 bits of an R form. -/
def formR (d a b f : Nat) : Nat := d * 65536 + a * 2048 + b * 64 + f
/-- The 21 bits of an I form. -/
def formI (d a imm : Nat) : Nat := d * 65536 + a * 2048 + imm
/-- The 21 bits of a V form. -/
def formV (d a b t m : Nat) : Nat := d * 65536 + a * 2048 + b * 64 + t * 8 + m
/-- The 21 bits of a C form. -/
def formC (d a dst src rm : Nat) : Nat := d * 65536 + a * 2048 + dst * 128 + src * 8 + rm
/-- The 21 bits of an M form. -/
def formM (d a w off : Nat) : Nat := d * 65536 + a * 2048 + w * 256 + off
/-- The 21 bits of an L form. -/
def formL (cnt len : Nat) : Nat := cnt * 2048 + len

/-- K, OP and the 21 form bits of an encoded instruction; (0, 63, 0) stands for a row without an encoding. -/
def encodeParts : Instr → KSel × Nat × Nat
  | .add k d a b => (k, 0, formR d a b 0)
  | .sub k d a b => (k, 0, formR d a b 1)
  | .and k d a b => (k, 0, formR d a b 2)
  | .or k d a b => (k, 0, formR d a b 3)
  | .xor k d a b => (k, 0, formR d a b 4)
  | .andn k d a b => (k, 0, formR d a b 5)
  | .shl k d a b => (k, 0, formR d a b 6)
  | .shr k d a b => (k, 0, formR d a b 7)
  | .sar k d a b => (k, 0, formR d a b 8)
  | .rotr k d a b => (k, 0, formR d a b 9)
  | .min k d a b => (k, 0, formR d a b 10)
  | .max k d a b => (k, 0, formR d a b 11)
  | .minn k d a b => (k, 0, formR d a b 12)
  | .maxn k d a b => (k, 0, formR d a b 13)
  | .seq k d a b => (k, 0, formR d a b 14)
  | .sne k d a b => (k, 0, formR d a b 15)
  | .slt k d a b => (k, 0, formR d a b 16)
  | .sltn k d a b => (k, 0, formR d a b 17)
  | .sel k d a b => (k, 0, formR d a b 18)
  | .clz k d a => (k, 0, formR d a 0 19)
  | .ctz k d a => (k, 0, formR d a 0 20)
  | .popc k d a => (k, 0, formR d a 0 21)
  | .padd k d a b => (k, 0, formR d a b 22)
  | .mul k d a b => (k, 1, formR d a b 0)
  | .mulh k d a b => (k, 1, formR d a b 1)
  | .mulhn k d a b => (k, 1, formR d a b 2)
  | .div k d a b => (k, 1, formR d a b 3)
  | .divn k d a b => (k, 1, formR d a b 4)
  | .rem k d a b => (k, 1, formR d a b 5)
  | .remn k d a b => (k, 1, formR d a b 6)
  | .addi k d a imm => (k, 2, formI d a imm.toNat)
  | .andi k d a imm => (k, 3, formI d a imm.toNat)
  | .ori k d a imm => (k, 4, formI d a imm.toNat)
  | .xori k d a imm => (k, 5, formI d a imm.toNat)
  | .slti k d a imm => (k, 9, formI d a imm.toNat)
  | .sltni k d a imm => (k, 10, formI d a imm.toNat)
  | .shli k d a n => (k, 6, formI d a n)
  | .shri k d a n => (k, 7, formI d a n)
  | .sari k d a n => (k, 8, formI d a n)
  | .li k d imm => (k, 11, formI d 0 imm.toNat)
  | .csrr k d c => (k, 12, formI d 0 c)
  | .csrw k a c => (k, 13, formI 0 a c)
  | .csrs k a c => (k, 14, formI 0 a c)
  | .csrc k a c => (k, 15, formI 0 a c)
  | .br k disp => (k, 16, disp.toNat)
  | .jal k disp => (k, 17, disp.toNat)
  | .jalr k d a imm => (k, 18, formI d a imm.toNat)
  | .loop k a len => (k, 19, formI 0 a len)
  | .loopi k cnt len => (k, 20, formL cnt len)
  | .lidx k d l => (k, 21, formR d l 0 0)
  | .lbrk k => (k, 21, formR 0 0 0 1)
  | .lnext k => (k, 21, formR 0 0 0 2)
  | .ldepth k d => (k, 21, formR d 0 0 3)
  | .nop k => (k, 22, formR 0 0 0 0)
  | .yield k => (k, 22, formR 0 0 0 1)
  | .endAct k => (k, 22, formR 0 0 0 2)
  | .brk k => (k, 22, formR 0 0 0 3)
  | .waitGen k a b => (k, 23, formR 0 a b 0)
  | .waitRidge k => (k, 23, formR 0 0 0 1)
  | .waitEq k a b => (k, 23, formR 0 a b 2)
  | .waitGe k a b => (k, 23, formR 0 a b 3)
  | .waitFeed k a => (k, 23, formR 0 a 0 4)
  | .trap k imm => (k, 24, formI 0 0 imm.toNat)
  | .clkon k d a => (k, 25, formR d a 0 0)
  | .clkoff k d a => (k, 25, formR d a 0 1)
  | .clksplit k d a => (k, 25, formR d a 0 2)
  | .clkq k d a => (k, 25, formR d a 0 3)
  | .clkundef k d => (k, 25, formR d 0 0 4)
  | .whenScalar k d a => (k, 26, formR d a 0 0)
  | .whenVector k d a => (k, 26, formR d a 0 1)
  | .currScalar k d a => (k, 26, formR d a 0 2)
  | .currVector k d a => (k, 26, formR d a 0 3)
  | .mergeScalar k d a b => (k, 27, formR d a b 0)
  | .mergeVector k d a b => (k, 27, formR d a b 1)
  | .vadd k d a b t m => (k, 28, formV d a b t.code m.code)
  | .vsub k d a b t m => (k, 29, formV d a b t.code m.code)
  | .vmul k d a b t m => (k, 30, formV d a b t.code m.code)
  | .vfma k d a b t m => (k, 31, formV d a b t.code m.code)
  | .vfms k d a b t m => (k, 32, formV d a b t.code m.code)
  | .vfnma k d a b t m => (k, 33, formV d a b t.code m.code)
  | .vdiv k d a b t m => (k, 34, formV d a b t.code m.code)
  | .vsqrt k d a t m => (k, 35, formV d a 0 t.code m.code)
  | .vminmax k d a b t m => (k, 36, formV d a b t.code m.code)
  | .vcmp k d a b t m => (k, 37, formV d a b t.code m.code)
  | .vcvt k d a dst src r => (k, 38, formC d a dst.code src.code r.code)
  | .vbitAnd k d a b => (k, 39, formV d a b 0 0)
  | .vbitOr k d a b => (k, 39, formV d a b 0 1)
  | .vbitXor k d a b => (k, 39, formV d a b 0 2)
  | .vbitAndn k d a b => (k, 39, formV d a b 0 3)
  | .vbitNot k d a => (k, 39, formV d a 0 0 4)
  | .vshiftShl k d a b t => (k, 40, formV d a b t.code 0)
  | .vshiftShr k d a b t => (k, 40, formV d a b t.code 1)
  | .vshiftSar k d a b t => (k, 40, formV d a b t.code 2)
  | .vshiftRotr k d a b t => (k, 40, formV d a b t.code 3)
  | .vunaryAbs k d a t => (k, 41, formV d a 0 t.code 0)
  | .vunaryNeg k d a t => (k, 41, formV d a 1 t.code 0)
  | .vunaryClass k d a t => (k, 41, formV d a 2 t.code 0)
  | .vunaryGetexp k d a t => (k, 41, formV d a 3 t.code 0)
  | .vunaryClz k d a t => (k, 41, formV d a 4 t.code 0)
  | .vunaryPopc k d a t => (k, 41, formV d a 5 t.code 0)
  | .vunaryRcpe k d a t => (k, 41, formV d a 6 t.code 0)
  | .vunaryRsqe k d a t => (k, 41, formV d a 7 t.code 0)
  | .vscalb k d a b t m => (k, 42, formV d a b t.code m.code)
  | .vsel k d a b w => (k, 43, formR d a b (w.code * 16 + 0))
  | .vbcast k d a w => (k, 43, formR d a 0 (w.code * 16 + 1))
  | .vext k d a b w => (k, 43, formR d a b (w.code * 16 + 2))
  | .vins k d a b w => (k, 43, formR d a b (w.code * 16 + 3))
  | .vperm k d a b w => (k, 43, formR d a b (w.code * 16 + 4))
  | .vslideup k d a b w => (k, 43, formR d a b (w.code * 16 + 5))
  | .vslidedn k d a b w => (k, 43, formR d a b (w.code * 16 + 6))
  | .viota k d w => (k, 43, formR d 0 0 (w.code * 16 + 7))
  | .vredSum k d a t r => (k, 44, formV d a r.code t.code 0)
  | .vredMin k d a t r => (k, 44, formV d a r.code t.code 1)
  | .vredMax k d a t r => (k, 44, formV d a r.code t.code 2)
  | .vredAnd k d a t => (k, 44, formV d a 0 t.code 3)
  | .vredOr k d a t => (k, 44, formV d a 0 t.code 4)
  | .vredXor k d a t => (k, 44, formV d a 0 t.code 5)
  | .vredFsumx k d a t r => (k, 44, formV d a r.code t.code 6)
  | .vredScan k d a t r => (k, 44, formV d a r.code t.code 7)
  | .vxaccP32 k d a b => (k, 45, formV d a b 0 0)
  | .vxaccS32 k d a => (k, 45, formV d a 0 0 1)
  | .vxaccP64 k d a b => (k, 45, formV d a b 0 2)
  | .vxaccS64 k d a => (k, 45, formV d a 0 0 3)
  | .xinit k d a => (k, 45, formV d a 0 0 4)
  | .xadd k d a b => (k, 45, formV d a b 0 5)
  | .xexpp k d a b => (k, 45, formV d a b 0 6)
  | .xexps k d a => (k, 45, formV d a 0 0 7)
  | .spawn k d a b => (k, 46, formR d a b 0)
  | .spawnc k d a b => (k, 46, formR d a b 1)
  | .resolve k a b => (k, 46, formR 0 a b 2)
  | .resolven k a b => (k, 46, formR 0 a b 3)
  | .launch k d a b => (k, 46, formR d a b 4)
  | .ld k d a w off => (k, 47, formM d a w.code off.toNat)
  | .st k d a w off => (k, 48, formM d a w.code off.toNat)
  | .vld k d a off => (k, 49, formM d a 0 off.toNat)
  | .vldFeedPop k d a => (k, 49, formM d a 1 0)
  | .vst k d a off => (k, 50, formM d a 0 off.toNat)
  | .vstFeedPush k d a => (k, 50, formM d a 1 0)
  | .fbyScalar k d a b => (k, 51, formR d a b 0)
  | .fbyVector k d a b => (k, 51, formR d a b 1)
  | .vlds k d a b w => (k, 52, formR d a b (w.code * 16 + 0))
  | .vsts k d a b w => (k, 52, formR d a b (w.code * 16 + 1))
  | .vgath k d a b w => (k, 52, formR d a b (w.code * 16 + 2))
  | .vscat k d a b w => (k, 52, formR d a b (w.code * 16 + 3))
  | .ldt k d a c w => (k, 53, formR d a 0 (c.code * 8 + w.code))
  | .atomAdd k a b w => (k, 54, formR 0 a b (w.code * 32 + 0))
  | .atomMin k a b w => (k, 54, formR 0 a b (w.code * 32 + 1))
  | .atomMax k a b w => (k, 54, formR 0 a b (w.code * 32 + 2))
  | .atomMinn k a b w => (k, 54, formR 0 a b (w.code * 32 + 3))
  | .atomMaxn k a b w => (k, 54, formR 0 a b (w.code * 32 + 4))
  | .atomAnd k a b w => (k, 54, formR 0 a b (w.code * 32 + 5))
  | .atomOr k a b w => (k, 54, formR 0 a b (w.code * 32 + 6))
  | .atomXor k a b w => (k, 54, formR 0 a b (w.code * 32 + 7))
  | .xadd32 k a b => (k, 54, formR 0 a b 8)
  | .fetchadd k d a b w => (k, 55, formR d a b (w.code * 32 + 0))
  | .swap k d a b w => (k, 55, formR d a b (w.code * 32 + 1))
  | .cas k d a b w => (k, 55, formR d a b (w.code * 32 + 2))
  | .fetchmin k d a b w => (k, 55, formR d a b (w.code * 32 + 3))
  | .fetchmax k d a b w => (k, 55, formR d a b (w.code * 32 + 4))
  | .ldacq k d a c => (k, 56, formR d a 0 (c.code * 8))
  | .strel k d a c => (k, 56, formR d a 0 (c.code * 8 + 1))
  | .fence k c => (k, 56, formR 0 0 0 (c.code * 8 + 2))
  | .cpy k a b => (k, 57, formR 0 a b 0)
  | .cpysum k d a b => (k, 57, formR d a b 1)
  | .coll k d a b => (k, 57, formR d a b 2)
  | .pref k a b => (k, 57, formR 0 a b 3)
  | .fbind k d a => (k, 58, formR d a 0 0)
  | .funbind k d => (k, 58, formR d 0 0 1)
  | .fflush k d => (k, 58, formR d 0 0 2)
  | .fstat k d a => (k, 58, formR d a 0 3)
  | .mmaW0 k d a b => (k, 59, formR d a b 0)
  | .mmaW1 k d a b => (k, 59, formR d a b 1)
  | .mmasW0 k d a b => (k, 59, formR d a b 2)
  | .mmasW1 k d a b => (k, 59, formR d a b 3)
  | .wldW0 k a b => (k, 59, formR 0 a b 4)
  | .wldW1 k a b => (k, 59, formR 0 a b 5)
  | .scl k a => (k, 59, formR 0 a 0 6)
  | .acol k d a b => (k, 59, formR d a b 7)
  | .azero k d a => (k, 60, formR d a 0 0)
  | .anorm k d a => (k, 60, formR d a 0 1)
  | .awrite k d a b => (k, 60, formR d a b 2)
  | .awriteAdd k d a b => (k, 60, formR d a b 3)
  | .aexp k d a => (k, 60, formR d a 0 4)
  | .astat k d a => (k, 60, formR d a 0 5)
  | .rft k a b => (k, 61, formR 0 a b 0)
  | .kill k a b => (k, 61, formR 0 a b 1)
  | .snapr k d a b => (k, 61, formR d a b 2)
  | .snapw k d a b => (k, 61, formR d a b 3)
  | .ctxsv k d a b => (k, 61, formR d a b 4)
  | .ctxld k d a b => (k, 61, formR d a b 5)
  | .ttinv k a b => (k, 61, formR 0 a b 6)
  | .halt k => (k, 61, formR 0 0 0 7)
  | .aread k d a b dst => (k, 62, formR d a b dst.code)
  | .literalExtension p => (.clk 0, 63, p.toNat)
  | _ => (.clk 0, 63, 0)

/-- The slot word of an encoded instruction and a stop bit (R49). -/
def encodeWord (stop : Bool) (i : Instr) : BitVec 32 :=
  BitVec.ofNat 32 (stop.toNat * 2147483648 + (encodeParts i).1.code * 134217728
    + (encodeParts i).2.1 * 2097152 + (encodeParts i).2.2)

/-- The words of an instruction: one slot (R49). -/
def encode (stop : Bool) (i : Instr) : List (BitVec 32) := [encodeWord stop i]

end Sys2Proof
end

