-- ==== Sys2Proof/Machine/Bits.lean ====
section
/-! DEFINITION. Bit fields, lanes and byte strings: the pseudocode functions of R7 and the lane
views of R138, on natural numbers so that each evaluates in the kernel. -/
namespace Sys2Proof.Machine

/-- `x[hi:lo]` (R4). -/
def field (x hi lo : Nat) : Nat := (x >>> lo) % 2 ^ (hi + 1 - lo)

/-- A function applied to every element of a vector, in a form the kernel evaluates. -/
def mapVec {α β : Type} {n : Nat} (f : α → β) (v : Vector α n) : Vector β n := ⟨⟨v.toList.map f⟩, by simp⟩

/-- Whether bit `n` of `x` is set. -/
def bitOf (x n : Nat) : Bool := (x >>> n) % 2 == 1

/-- `sext(x, n)` as an integer (R7). -/
def sextInt (n x : Nat) : Int :=
  let y := x % 2 ^ n
  if n = 0 then 0 else if y < 2 ^ (n - 1) then (y : Int) else (y : Int) - (2 ^ n : Nat)

/-- The low `n` bits of an integer, two's complement. -/
def wrapNat (n : Nat) (x : Int) : Nat := (x % (2 ^ n : Nat)).toNat

/-- The low 64 bits of an integer as a word. -/
def wordOfInt (x : Int) : Word := BitVec.ofNat 64 (wrapNat 64 x)

/-- The width in bits of a lane type (R138). -/
def ltWidth : LaneType → Nat
  | .i8 => 8 | .i16 => 16 | .i32 => 32 | .i64 => 64
  | .f16 => 16 | .bf16 => 16 | .f32 => 32 | .f64 => 64

/-- Whether T is "Float" (R65). -/
def ltFloat : LaneType → Bool
  | .i8 | .i16 | .i32 | .i64 => false
  | .f16 | .bf16 | .f32 | .f64 => true

/-- The width in bits of an element width (R153, R282). -/
def ewBits : EWidth → Nat
  | .w8 => 8 | .w16 => 16 | .w32 => 32 | .w64 => 64

/-- The number of lanes of width `w` (R138). -/
def lanes (w : Nat) : Nat := 2048 / w

/-- Lane `i` of width `w` (R138). -/
def lane (w : Nat) (v : Vec) (i : Nat) : Nat := (v.toNat >>> (w * i)) % 2 ^ w

/-- The number whose `n` fields of width `w`, from field `i` upward, are `f i, f (i+1), ...`. -/
def packFrom (w : Nat) (f : Nat → Nat) : Nat → Nat → Nat
  | 0, _ => 0
  | n + 1, i => f i % 2 ^ w + 2 ^ w * packFrom w f n (i + 1)

/-- The vector whose lane `i` of width `w` is `f i`, cut to `w` bits. -/
def ofLanes (w : Nat) (f : Nat → Nat) : Vec := BitVec.ofNat 2048 (packFrom w f (lanes w) 0)

/-- A list's lanes, 0 past its end. -/
def ofLaneList (w : Nat) (l : List Nat) : Vec := ofLanes w (fun i => l.getD i 0)

/-- The lanes of a vector in order. -/
def laneList (w : Nat) (v : Vec) : List Nat := (List.range (lanes w)).map (lane w v)

/-- A byte string as a number, little-endian (R4). -/
def natOfBytes : List Byte → Nat
  | [] => 0
  | b :: bs => b.toNat + 256 * natOfBytes bs

/-- The `n` low bytes of a number, little-endian (R4). -/
def bytesOfNat : Nat → Nat → List Byte
  | 0, _ => []
  | n + 1, x => BitVec.ofNat 8 x :: bytesOfNat n (x / 256)

/-- floor(log2 x) for positive x. -/
def ilog2 (x : Nat) : Nat := Nat.log2 x

/-- The number of leading zero bits of an `n`-bit value; `n` for zero (R97, R148). -/
def clzNat (n x : Nat) : Nat := if x % 2 ^ n = 0 then n else n - 1 - Nat.log2 (x % 2 ^ n)

/-- The number of trailing zero bits among the low `n`, by testing upward from bit 0 (R97). -/
def ctzNat : Nat → Nat → Nat
  | 0, _ => 0
  | n + 1, x => if x % 2 = 1 then 0 else ctzNat n (x / 2) + 1

/-- The number of set bits among the low `n` (R97, R148). -/
def popcNat : Nat → Nat → Nat
  | 0, _ => 0
  | n + 1, x => x % 2 + popcNat n (x / 2)

/-- The integer square root by bisection downward from bit `n`: the largest `r` with r*r ≤ x,
built from `acc` by setting bits n-1 .. 0. -/
def isqrtFrom (x : Nat) : Nat → Nat → Nat
  | 0, acc => acc
  | n + 1, acc =>
    let t := acc + 2 ^ n
    if t * t ≤ x then isqrtFrom x n t else isqrtFrom x n acc

/-- The integer square root. -/
def isqrt (x : Nat) : Nat := isqrtFrom x (Nat.log2 x / 2 + 1) 0

/-! ### Sparse maps: lists sorted by key, no repeats -/

/-- The value at a key of a sparse map, or the default. -/
def sget {α : Type} (dflt : α) : List (Nat × α) → Nat → α
  | [], _ => dflt
  | (k, v) :: rest, key => if k = key then v else sget dflt rest key

/-- Put a value at a key, keeping the order of keys. -/
def sput {α : Type} : List (Nat × α) → Nat → α → List (Nat × α)
  | [], key, x => [(key, x)]
  | (k, v) :: rest, key, x =>
    if key < k then (key, x) :: (k, v) :: rest
    else if key = k then (key, x) :: rest
    else (k, v) :: sput rest key x

/-- Remove a key. -/
def sdel {α : Type} (l : List (Nat × α)) (key : Nat) : List (Nat × α) :=
  l.filter (fun p => p.1 ≠ key)

end Sys2Proof.Machine
end

