-- ==== Sys2Proof/Machine/Float.lean ====
section
/-! DEFINITION. Floating-point numbers (R71-R82): decoding, the one rounding `rnd` of R7, NaN rules,
and the flags each step raises. Arithmetic is exact on integers; only `roundMag` rounds. -/
namespace Sys2Proof.Machine

/-! ### Flags -/

/-- The five flags of FPC (R37). -/
structure Flags where
  nv : Bool := false
  dz : Bool := false
  of : Bool := false
  uf : Bool := false
  nx : Bool := false
  deriving DecidableEq, Repr

/-- No flag raised. -/
def noFlags : Flags := {}

/-- Both sets of flags (R84). -/
def orFlags (a b : Flags) : Flags :=
  { nv := a.nv || b.nv, dz := a.dz || b.dz, of := a.of || b.of, uf := a.uf || b.uf, nx := a.nx || b.nx }

/-- The invalid-operation flag alone. -/
def flagNV (c : Bool) : Flags := { nv := c }

/-- The flags as TINFO[4:0] of FPX and the COLL record hold them: NV in bit 4 down to NX in bit 0
(R85, R422). -/
def flagsNat (f : Flags) : Nat :=
  f.nv.toNat * 16 + f.dz.toNat * 8 + f.of.toNat * 4 + f.uf.toNat * 2 + f.nx.toNat

/-! ### Rounding modes -/

/-- The six modes of R75. -/
inductive Mode where
  | rne | rtz | rup | rdn | rna | sat
  deriving DecidableEq, Repr

/-- The mode in FPC.RM (R37): 001 RNE to 110 SAT. RM never holds 000 or 111. -/
def modeOfRM (rm : Nat) : Mode :=
  match rm with
  | 2 => .rtz | 3 => .rup | 4 => .rdn | 5 => .rna | 6 => .sat | _ => .rne

/-- The mode a rounding code selects; DYN takes FPC.RM (R62, R75). -/
def modeOf (rm : Nat) : Rnd → Mode
  | .dyn => modeOfRM rm
  | .rne => .rne | .rtz => .rtz | .rup => .rup | .rdn => .rdn | .rna => .rna | .sat => .sat

/-! ### Formats -/

/-- A floating-point format (R71). -/
structure FFmt where
  ebits : Nat
  fbits : Nat
  bias : Nat
  e4m3 : Bool := false
  deriving DecidableEq, Repr

def fmtF64 : FFmt := { ebits := 11, fbits := 52, bias := 1023 }
def fmtF32 : FFmt := { ebits := 8, fbits := 23, bias := 127 }
def fmtBF16 : FFmt := { ebits := 8, fbits := 7, bias := 127 }
def fmtF16 : FFmt := { ebits := 5, fbits := 10, bias := 15 }
def fmtE5M2 : FFmt := { ebits := 5, fbits := 2, bias := 15 }
def fmtE4M3 : FFmt := { ebits := 4, fbits := 3, bias := 7, e4m3 := true }

/-- The format of a float lane type (R62); f64 also stands for the integer types, which no caller
asks about. -/
def ltFmt : LaneType → FFmt
  | .f16 => fmtF16 | .bf16 => fmtBF16 | .f32 => fmtF32 | _ => fmtF64

def signBit (f : FFmt) : Nat := 2 ^ (f.ebits + f.fbits)
def expAllOnes (f : FFmt) : Nat := 2 ^ f.ebits - 1
def quietBit (f : FFmt) : Nat := 2 ^ (f.fbits - 1)
/-- The exponent of the smallest normal number, 1 - bias. -/
def emin (f : FFmt) : Int := 1 - (f.bias : Int)
/-- The exponent of the largest finite number. -/
def emax (f : FFmt) : Int := if f.e4m3 then 8 else (expAllOnes f : Int) - 1 - f.bias

def withSign (f : FFmt) (neg : Bool) (mag : Nat) : Nat := if neg then signBit f + mag else mag

/-- +infinity's magnitude; e4m3 has none (R71). -/
def infMag (f : FFmt) : Nat := expAllOnes f * 2 ^ f.fbits

/-- The largest finite magnitude (R71). -/
def maxMag (f : FFmt) : Nat := if f.e4m3 then 0x7E else infMag f - 1

/-- The canonical NaN (R71, R81). -/
def canonNaN (f : FFmt) : Nat := if f.e4m3 then 0x7F else infMag f + quietBit f

/-- What a bit pattern denotes (R71, R72): a NaN, an infinity, or the number m * 2^e. -/
inductive FVal where
  | nan (neg quiet : Bool) (payload : Nat)
  | inf (neg : Bool)
  | fin (neg : Bool) (m : Nat) (e : Int)
  deriving DecidableEq, Repr

/-- Decoding a bit pattern (R71, R72). -/
def decodeF (f : FFmt) (bits : Nat) : FVal :=
  let fr := bits % 2 ^ f.fbits
  let ex := (bits / 2 ^ f.fbits) % 2 ^ f.ebits
  let neg := (bits / signBit f) % 2 == 1
  if f.e4m3 then
    if ex = 15 ∧ fr = 7 then .nan neg true 0
    else if ex = 0 then .fin neg fr (emin f - f.fbits)
    else .fin neg (2 ^ f.fbits + fr) ((ex : Int) - f.bias - f.fbits)
  else if ex = expAllOnes f then
    if fr = 0 then .inf neg else .nan neg (decide (quietBit f ≤ fr)) (fr % quietBit f)
  else if ex = 0 then .fin neg fr (emin f - f.fbits)
  else .fin neg (2 ^ f.fbits + fr) ((ex : Int) - f.bias - f.fbits)

def isNaN : FVal → Bool
  | .nan .. => true
  | _ => false

def isSNaN : FVal → Bool
  | .nan _ q _ => !q
  | _ => false

def isZero : FVal → Bool
  | .fin _ m _ => m == 0
  | _ => false

def isInf : FVal → Bool
  | .inf _ => true
  | _ => false

def signOf : FVal → Bool
  | .nan n .. => n
  | .inf n => n
  | .fin n .. => n

/-- A NaN operand with its quiet bit set, payload and sign unchanged (R80). -/
def quieten (f : FFmt) (bits : Nat) : Nat :=
  if f.e4m3 then bits else if (bits / quietBit f) % 2 = 1 then bits else bits + quietBit f

/-- A bit pattern with the flags its production raised. -/
abbrev FRes := Nat × Flags

/-- The first NaN among the operands in order, quietened, with NV when any is signalling (R80); none
when no operand is NaN. -/
def propagateNaN (f : FFmt) (ops : List Nat) : Option FRes :=
  match ops.find? (fun b => isNaN (decodeF f b)) with
  | some b => some (quieten f b, flagNV (ops.any (fun b => isSNaN (decodeF f b))))
  | none => none

/-! ### The one rounding -/

/-- Whether the upper neighbour is taken, for a remainder compared with half (R75):
`up` exceeds half, `tie` equals it, `inexact` is non-zero, `odd` the lower neighbour's last bit. -/
def roundsUp (mode : Mode) (neg up tie inexact odd : Bool) : Bool :=
  match mode with
  | .rne | .sat => up || (tie && odd)
  | .rna => up || tie
  | .rtz => false
  | .rup => inexact && !neg
  | .rdn => inexact && neg

/-- The magnitude (m + δ) * 2^e rounded to a multiple of 2^q, with δ in (0,1) when `sticky` and 0
otherwise: the multiple and whether it is inexact. A sticky value must have q > e. -/
def roundMul (mode : Mode) (neg : Bool) (m : Nat) (e : Int) (sticky : Bool) (q : Int) : Nat × Bool :=
  if q ≤ e then (m * 2 ^ (e - q).toNat, sticky)
  else
    let s := (q - e).toNat
    if Nat.log2 m + 2 ≤ s then                     -- below half of the lower place
      let inexact := m != 0 || sticky
      (if roundsUp mode neg false false inexact false then 1 else 0, inexact)
    else
      let k := m / 2 ^ s
      let r := m % 2 ^ s
      let half := 2 ^ (s - 1)
      let inexact := r != 0 || sticky
      let up := decide (half < r) || (r == half && sticky)
      let tie := r == half && !sticky
      (if roundsUp mode neg up tie inexact (k % 2 == 1) then k + 1 else k, inexact)

/-- The bits of an overflowing result (R76): an infinity, which e4m3 replaces by the NaN of its
sign, or the largest finite value. -/
def overflowBits (f : FFmt) (mode : Mode) (neg : Bool) : Nat :=
  let toInf := match mode with
    | .rne | .rna => true
    | .rtz | .sat => false
    | .rup => !neg
    | .rdn => neg
  withSign f neg (if toInf then (if f.e4m3 then canonNaN f else infMag f) else maxMag f)

/-- The encoding of k * 2^q where k has exactly fbits + 1 bits or fewer and q is its last place. -/
def encodeMag (f : FFmt) (k : Nat) (q : Int) : Nat :=
  if k = 0 then 0
  else if k < 2 ^ f.fbits then k
  else
    let k' := if 2 ^ (f.fbits + 1) ≤ k then k / 2 else k
    let q' := if 2 ^ (f.fbits + 1) ≤ k then q + 1 else q
    ((q' + f.fbits + f.bias).toNat) * 2 ^ f.fbits + (k' - 2 ^ f.fbits)

/-- A finite non-zero magnitude (m + δ) * 2^e rounded into a format (R75-R78): overflow and tininess
are judged on the rounding with an unbounded exponent range. A sticky value must have at least
fbits + 3 significant bits. -/
def roundMag (f : FFmt) (mode : Mode) (neg : Bool) (m : Nat) (e : Int) (sticky : Bool) : FRes :=
  let qu := e + (Nat.log2 m : Int) - f.fbits
  let (ku, inexU) := roundMul mode neg m e sticky qu
  let eu := qu + (Nat.log2 ku : Int)
  let top := f.e4m3 && eu == emax f && ku == 2 ^ (f.fbits + 1) - 1
  if emax f < eu || top then (overflowBits f mode neg, { of := true, nx := true })
  else if eu < emin f then
    let q := emin f - f.fbits
    let (k, inex) := roundMul mode neg m e sticky q
    (withSign f neg (encodeMag f k q), { uf := inex, nx := inex })
  else (withSign f neg (encodeMag f ku qu), { nx := inexU })

/-- `rnd(x, mode, fmt)` of a finite value; a zero keeps the sign given (R74, R75). -/
def roundFin (f : FFmt) (mode : Mode) (neg : Bool) (m : Nat) (e : Int) (sticky : Bool := false) : FRes :=
  if m = 0 ∧ sticky = false then (withSign f neg 0, noFlags) else roundMag f mode neg m e sticky

/-- An infinite result of an operation on operands of the result's format: SAT gives the largest
finite value and adds NX (R77). -/
def infResult (f : FFmt) (mode : Mode) (neg : Bool) (fl : Flags) : FRes :=
  if mode = .sat then (withSign f neg (maxMag f), orFlags fl { nx := true })
  else (withSign f neg (infMag f), fl)

/-- The canonical NaN of an invalid operation (R81). -/
def invalidRes (f : FFmt) : FRes := (canonNaN f, flagNV true)

/-! ### Sums of two exact magnitudes -/

/-- A signed magnitude as an integer. -/
def signedInt (neg : Bool) (m : Nat) : Int := if neg then -(m : Int) else m

/-- The exact sum x1 * 2^e1 + x2 * 2^e2 as an integer and its exponent. -/
def alignSum (x1 : Int) (e1 : Int) (x2 : Int) (e2 : Int) : Int × Int :=
  let e := if e1 ≤ e2 then e1 else e2
  (x1 * 2 ^ (e1 - e).toNat + x2 * 2 ^ (e2 - e).toNat, e)

/-- The rounded sum of two finite values; an exact zero takes the IEEE sign (R74). -/
def sumFin (f : FFmt) (mode : Mode) (n1 : Bool) (m1 : Nat) (e1 : Int) (n2 : Bool) (m2 : Nat) (e2 : Int) : FRes :=
  let (s, e) := alignSum (signedInt n1 m1) e1 (signedInt n2 m2) e2
  if s = 0 then
    let neg := if m1 = 0 ∧ m2 = 0 ∧ n1 = n2 then n1 else decide (mode = .rdn)
    (withSign f neg 0, noFlags)
  else roundFin f mode (decide (s < 0)) s.natAbs e

/-- The sum of two values neither of which is NaN (R81). -/
def sumVals (f : FFmt) (mode : Mode) (x y : FVal) : FRes :=
  match x, y with
  | .inf n1, .inf n2 => if n1 = n2 then infResult f mode n1 noFlags else invalidRes f
  | .inf n1, _ => infResult f mode n1 noFlags
  | _, .inf n2 => infResult f mode n2 noFlags
  | .fin n1 m1 e1, .fin n2 m2 e2 => sumFin f mode n1 m1 e1 n2 m2 e2
  | _, _ => invalidRes f

def negateVal : FVal → FVal
  | .nan n q p => .nan n q p
  | .inf n => .inf (!n)
  | .fin n m e => .fin (!n) m e

/-- The exact product of two values neither of which is NaN; none for 0 × ∞ (R81). -/
def mulVals (x y : FVal) : Option FVal :=
  match x, y with
  | .fin n1 m1 e1, .fin n2 m2 e2 => some (.fin (xor n1 n2) (m1 * m2) (e1 + e2))
  | .inf n1, .inf n2 => some (.inf (xor n1 n2))
  | .inf n1, .fin n2 m2 _ => if m2 = 0 then none else some (.inf (xor n1 n2))
  | .fin n1 m1 _, .inf n2 => if m1 = 0 then none else some (.inf (xor n1 n2))
  | _, _ => none

/-! ### The operations of R142 -/

def fAdd (f : FFmt) (mode : Mode) (a b : Nat) : FRes :=
  match propagateNaN f [a, b] with
  | some r => r
  | none => sumVals f mode (decodeF f a) (decodeF f b)

def fSub (f : FFmt) (mode : Mode) (a b : Nat) : FRes :=
  match propagateNaN f [a, b] with
  | some r => r
  | none => sumVals f mode (decodeF f a) (negateVal (decodeF f b))

/-- The rounded form of an exact value that is no NaN. -/
def roundVal (f : FFmt) (mode : Mode) : FVal → FRes
  | .fin n m e => roundFin f mode n m e
  | .inf n => infResult f mode n noFlags
  | .nan .. => invalidRes f

def fMul (f : FFmt) (mode : Mode) (a b : Nat) : FRes :=
  match propagateNaN f [a, b] with
  | some r => r
  | none =>
    match mulVals (decodeF f a) (decodeF f b) with
    | none => invalidRes f
    | some x => roundVal f mode x

/-- Fused multiply-add (R142): `negP` negates the product, `negD` the addend; negation changes no
NaN. 0 × ∞ raises NV even when d is a quiet NaN. -/
def fFma (f : FFmt) (mode : Mode) (negP negD : Bool) (a b d : Nat) : FRes :=
  let va := decodeF f a
  let vb := decodeF f b
  let bad := !(isNaN va) && !(isNaN vb) && (mulVals va vb).isNone
  match propagateNaN f [a, b, d] with
  | some (r, fl) => (r, orFlags fl (flagNV bad))
  | none =>
    match mulVals va vb with
    | none => invalidRes f
    | some p =>
      let p := if negP then negateVal p else p
      let d := if negD then negateVal (decodeF f d) else decodeF f d
      sumVals f mode p d

/-- Division (R142): a quotient with 2^(fbits+4) or more and a sticky remainder, rounded once. -/
def fDiv (f : FFmt) (mode : Mode) (a b : Nat) : FRes :=
  match propagateNaN f [a, b] with
  | some r => r
  | none =>
    match decodeF f a, decodeF f b with
    | .inf _, .inf _ => invalidRes f
    | .inf n1, y => infResult f mode (xor n1 (signOf y)) noFlags
    | x, .inf n2 => (withSign f (xor (signOf x) n2) 0, noFlags)
    | .fin n1 m1 e1, .fin n2 m2 e2 =>
      if m2 = 0 then
        if m1 = 0 then invalidRes f else infResult f mode (xor n1 n2) { dz := true }
      else if m1 = 0 then (withSign f (xor n1 n2) 0, noFlags)
      else
        let sh := 2 * f.fbits + 8
        let q := m1 * 2 ^ sh / m2
        let r := m1 * 2 ^ sh % m2
        roundFin f mode (xor n1 n2) q (e1 - e2 - sh) (r != 0)
    | _, _ => invalidRes f

/-- An exact magnitude m * 2^e as a square root: root, exponent, sticky, with 2^p or more. -/
def sqrtMag (p : Nat) (m : Nat) (e : Int) : Nat × Int × Bool :=
  let sh := 2 * p + 2 + ((e % 2).toNat)
  let x := m * 2 ^ sh
  let e' := (e - sh) / 2
  let r := isqrt x
  (r, e', r * r != x)

/-- Square root (R81, R142): −0 gives −0, a value below −0 is invalid. -/
def fSqrt (f : FFmt) (mode : Mode) (a : Nat) : FRes :=
  match propagateNaN f [a] with
  | some r => r
  | none =>
    match decodeF f a with
    | .inf n => if n then invalidRes f else infResult f mode false noFlags
    | .fin n m e =>
      if m = 0 then (withSign f n 0, noFlags)
      else if n then invalidRes f
      else
        let (r, e', st) := sqrtMag (f.fbits + 4) m e
        roundFin f mode false r e' st
    | .nan .. => invalidRes f

/-- VSCALB (R152): a × 2^k. -/
def fScalb (f : FFmt) (mode : Mode) (a : Nat) (k : Int) : FRes :=
  match propagateNaN f [a] with
  | some r => r
  | none =>
    match decodeF f a with
    | .fin n m e => roundFin f mode n m (e + k)
    | .inf n => infResult f mode n noFlags
    | .nan .. => invalidRes f

/-- GETEXP (R150). -/
def fGetexp (f : FFmt) (a : Nat) : FRes :=
  match propagateNaN f [a] with
  | some r => r
  | none =>
    match decodeF f a with
    | .inf _ => (infMag f, noFlags)
    | .fin _ m e =>
      if m = 0 then (withSign f true (infMag f), { dz := true })
      else
        let x := e + (Nat.log2 m : Int)
        roundFin f .rne (decide (x < 0)) x.natAbs 0
    | .nan .. => invalidRes f

/-- A magnitude rounded to F14, a 14-bit fraction with an unbounded exponent, under RNE (R151). -/
def roundF14 (m : Nat) (e : Int) (sticky : Bool) : Nat × Int :=
  let q := e + (Nat.log2 m : Int) - 14
  ((roundMul .rne false m e sticky q).1, q)

/-- RCPE (R151). -/
def fRcpe (f : FFmt) (a : Nat) : FRes :=
  match propagateNaN f [a] with
  | some r => r
  | none =>
    match decodeF f a with
    | .inf n => (withSign f n 0, noFlags)
    | .fin n m e =>
      if m = 0 then (withSign f n (infMag f), { dz := true })
      else
        let sh := Nat.log2 m + 40
        let q := 2 ^ sh / m
        let (k, qe) := roundF14 q (-e - sh) (2 ^ sh % m != 0)
        roundFin f .rne n k qe
    | .nan .. => invalidRes f

/-- RSQE (R151): the reciprocal of the square root, from the root of the reciprocal's square. -/
def fRsqe (f : FFmt) (a : Nat) : FRes :=
  match propagateNaN f [a] with
  | some r => r
  | none =>
    match decodeF f a with
    | .inf n => if n then invalidRes f else (0, noFlags)
    | .fin n m e =>
      if m = 0 then (withSign f n (infMag f), { dz := true })
      else if n then invalidRes f
      else
        -- 1/sqrt(m * 2^e) = sqrt(2^sh / m) * 2^(-(sh + e)/2), sh + e even
        let sh := 2 * Nat.log2 m + 80 + ((e % 2).toNat)
        let y := 2 ^ sh / m
        let r := isqrt y
        let st := r * r != y || 2 ^ sh % m != 0
        let (k, qe) := roundF14 r ((-e - sh) / 2) st
        roundFin f .rne false k qe
    | .nan .. => invalidRes f

/-- CLASS's bit number (R149). -/
def fClass (f : FFmt) (a : Nat) : Nat :=
  match decodeF f a with
  | .nan _ q _ => if q then 1 else 0
  | .inf n => if n then 2 else 9
  | .fin n m e =>
    if m = 0 then (if n then 5 else 6)
    else if e = emin f - f.fbits ∧ m < 2 ^ f.fbits then (if n then 4 else 7)
    else if n then 3 else 8

/-! ### Comparison and selection (R83, R143) -/

/-- Whether x < y on values that are no NaN; −0 equals +0. -/
def ltVals (x y : FVal) : Bool :=
  match x, y with
  | .inf n1, .inf n2 => n1 && !n2
  | .inf n1, _ => n1
  | _, .inf n2 => !n2
  | .fin n1 m1 e1, .fin n2 m2 e2 =>
    decide ((alignSum (signedInt n1 m1) e1 (-(signedInt n2 m2)) e2).1 < 0)
  | _, _ => false

def eqVals (x y : FVal) : Bool :=
  match x, y with
  | .inf n1, .inf n2 => n1 == n2
  | .fin n1 m1 e1, .fin n2 m2 e2 =>
    decide ((alignSum (signedInt n1 m1) e1 (-(signedInt n2 m2)) e2).1 = 0)
  | _, _ => false

/-- A float relation and its flags (R143). LTN and LEN have no float form. -/
def fCmp (f : FFmt) (c : CmpOp) (a b : Nat) : Bool × Flags :=
  let x := decodeF f a
  let y := decodeF f b
  let anyNaN := isNaN x || isNaN y
  let anyS := isSNaN x || isSNaN y
  match c with
  | .eq => (!anyNaN && eqVals x y, flagNV anyS)
  | .ne => (anyNaN || !(eqVals x y), flagNV anyS)
  | .lt | .ltn => (!anyNaN && ltVals x y, flagNV anyNaN)
  | .le | .len => (!anyNaN && (ltVals x y || eqVals x y), flagNV anyNaN)
  | .un => (anyNaN, flagNV anyS)

/-- The total order of R83 on values that are no NaN: −0 is less than +0. -/
def lessForMin (x y : FVal) : Bool :=
  ltVals x y || (eqVals x y && signOf x && !(signOf y))

/-- VMINMAX on a float lane (R83, R144). -/
def fMinMax (f : FFmt) (op : MinMaxOp) (a b : Nat) : FRes :=
  let x := decodeF f a
  let y := decodeF f b
  let nv := flagNV (isSNaN x || isSNaN y)
  let number := match op with
    | .minNum | .maxNum => true
    | _ => false
  if isNaN x && isNaN y then (quieten f a, nv)
  else if isNaN x then (if number then b else quieten f a, nv)
  else if isNaN y then (if number then a else quieten f b, nv)
  else
    match op with
    | .minNum | .minimum => (if lessForMin y x then b else a, noFlags)
    | .maxNum | .maximum => (if lessForMin x y then b else a, noFlags)

/-! ### Conversions (R79, R82, R86) -/

/-- A NaN converted between formats (R82). -/
def convNaN (src dst : FFmt) (neg : Bool) (payload : Nat) : Nat :=
  if dst.e4m3 then withSign dst neg 0x7F
  else
    let ps := if src.e4m3 then 1 else src.fbits - 1
    let pd := dst.fbits - 1
    let p := if pd ≤ ps then payload / 2 ^ (ps - pd) else payload * 2 ^ (pd - ps)
    withSign dst neg (infMag dst + quietBit dst + p)

/-- An infinity delivered into a format by a conversion or readout (R77, R86, R93): the largest
finite value with NX under SAT, the NaN of its sign with NV in e4m3, otherwise itself. -/
def convInf (dst : FFmt) (mode : Mode) (neg : Bool) : FRes :=
  if mode = .sat then (withSign dst neg (maxMag dst), { nx := true })
  else if dst.e4m3 then (withSign dst neg 0x7F, flagNV true)
  else (withSign dst neg (infMag dst), noFlags)

/-- Float to float (R86). Into a wider format the conversion is exact and the rounding code has no
effect (R86, R145), so an infinity stays one under SAT too (DEDUCED, log 14). -/
def cvtFF (src dst : FFmt) (mode : Mode) (bits : Nat) : FRes :=
  match decodeF src bits with
  | .nan n q p => (convNaN src dst n p, flagNV (!q))
  | .inf n =>
    if src.ebits + src.fbits < dst.ebits + dst.fbits then (withSign dst n (infMag dst), noFlags)
    else convInf dst mode n
  | .fin n m e => roundFin dst mode n m e

/-- The range of an integer format of width w (R68). -/
def intMin (signed : Bool) (w : Nat) : Int := if signed then -(2 ^ (w - 1) : Nat) else 0
def intMax (signed : Bool) (w : Nat) : Int := if signed then (2 ^ (w - 1) : Nat) - 1 else (2 ^ w : Nat) - 1

/-- The value clamped to a range. -/
def clampInt (lo hi x : Int) : Int := if x < lo then lo else if hi < x then hi else x

/-- Float to integer (R79). -/
def cvtFI (src : FFmt) (signed : Bool) (w : Nat) (mode : Mode) (bits : Nat) : FRes :=
  match decodeF src bits with
  | .nan .. => (0, flagNV true)
  | .inf n => (wrapNat w (if n then intMin signed w else intMax signed w), flagNV true)
  | .fin n m e =>
    let (k, inex) := roundMul mode n m e false 0
    let x := signedInt n k
    if x < intMin signed w ∨ intMax signed w < x then
      (wrapNat w (clampInt (intMin signed w) (intMax signed w) x), flagNV true)
    else (wrapNat w x, { nx := inex })

/-- Integer to float (R86); a zero is +0. -/
def cvtIF (signed : Bool) (w : Nat) (dst : FFmt) (mode : Mode) (bits : Nat) : FRes :=
  let x := if signed then sextInt w bits else ((bits % 2 ^ w : Nat) : Int)
  roundFin dst mode (decide (x < 0)) x.natAbs 0

/-- Integer to integer (R86): clamped under SAT, else the low bits. -/
def cvtII (ssigned : Bool) (sw : Nat) (dsigned : Bool) (dw : Nat) (mode : Mode) (bits : Nat) : FRes :=
  let x := if ssigned then sextInt sw bits else ((bits % 2 ^ sw : Nat) : Int)
  if mode = .sat then (wrapNat dw (clampInt (intMin dsigned dw) (intMax dsigned dw) x), noFlags)
  else (wrapNat dw x, noFlags)

/-- A format code as a number format (R62, R68, R71). -/
inductive NumKind where
  | int (signed : Bool) (w : Nat)
  | flt (f : FFmt)
  | x128
  deriving DecidableEq, Repr

def fmt4Kind : Fmt4 → NumKind
  | .i8 => .int true 8 | .i16 => .int true 16 | .i32 => .int true 32 | .i64 => .int true 64
  | .n8 => .int false 8 | .n16 => .int false 16 | .n32 => .int false 32 | .n64 => .int false 64
  | .f16 => .flt fmtF16 | .bf16 => .flt fmtBF16 | .f32 => .flt fmtF32 | .f64 => .flt fmtF64
  | .e4m3 => .flt fmtE4M3 | .e5m2 => .flt fmtE5M2 | .x128 => .x128

/-- The format code's number (R62). -/
def fmt4Code : Fmt4 → Nat
  | .i8 => 0 | .i16 => 1 | .i32 => 2 | .i64 => 3 | .n8 => 4 | .n16 => 5 | .n32 => 6 | .n64 => 7
  | .f16 => 8 | .bf16 => 9 | .f32 => 10 | .f64 => 11 | .e4m3 => 12 | .e5m2 => 13 | .x128 => 14

/-- The element width in bits of a format code: VCVT's lane width (R145), the element size of R233. -/
def fmt4Width : Fmt4 → Nat
  | .i8 | .n8 | .e4m3 | .e5m2 => 8
  | .i16 | .n16 | .f16 | .bf16 => 16
  | .i32 | .n32 | .f32 => 32
  | .i64 | .n64 | .f64 => 64
  | .x128 => 256

/-- A conversion between two formats neither of which is x128 (R86). -/
def convert (src dst : NumKind) (mode : Mode) (bits : Nat) : FRes :=
  match src, dst with
  | .flt f, .flt g => cvtFF f g mode bits
  | .flt f, .int s w => cvtFI f s w mode bits
  | .int s w, .flt g => cvtIF s w g mode bits
  | .int s w, .int s' w' => cvtII s w s' w' mode bits
  | _, _ => (0, noFlags)

end Sys2Proof.Machine
end

