-- ==== Sys2Proof/Machine/Exact.lean ====
section
/-! DEFINITION. Exact sums (R91-R94): the grid rule, the x128 container, its readout, and the
reductions and accumulations that use them (R154-R159). -/
namespace Sys2Proof.Machine

/-- The special bits of an exact sum (R91). -/
structure Special where
  nan : Bool := false
  pinf : Bool := false
  ninf : Bool := false
  deriving DecidableEq, Repr

def orSpecial (a b : Special) : Special :=
  { nan := a.nan || b.nan, pinf := a.pinf || b.pinf, ninf := a.ninf || b.ninf }

/-- A finite term m * 2^e rounded onto the grid 2^E, ties to even, modulo 2^n (R91). A term whose
lowest place is 2^n grid units or more is 0 modulo 2^n. -/
def gridTerm (n : Nat) (neg : Bool) (m : Nat) (e : Int) (E : Int) : Nat :=
  if E + n ≤ e then 0
  else wrapNat n (signedInt neg (roundMul .rne neg m e false E).1)

/-- An exact sum: V modulo 2^n as a natural number, and the special bits. -/
structure XSum where
  v : Nat
  sp : Special
  deriving DecidableEq, Repr

/-- One term added (R91): none stands for the NaN of 0 × ∞. -/
def addTerm (n : Nat) (E : Int) (s : XSum) (t : Option FVal) : XSum :=
  match t with
  | none => { s with sp := orSpecial s.sp { nan := true } }
  | some (.nan ..) => { s with sp := orSpecial s.sp { nan := true } }
  | some (.inf neg) => { s with sp := orSpecial s.sp (if neg then { ninf := true } else { pinf := true }) }
  | some (.fin neg m e) => { s with v := (s.v + gridTerm n neg m e E) % 2 ^ n }

/-- A product of two values as a term: a NaN factor gives NaN, 0 × ∞ gives none (R91). -/
def productTerm (x y : FVal) : Option FVal :=
  if isNaN x || isNaN y then some (.nan false true 0) else mulVals x y

/-- The readout of an exact sum into a format (R93). -/
def readout (n : Nat) (f : FFmt) (mode : Mode) (s : XSum) (E : Int) : FRes :=
  if s.sp.nan || (s.sp.pinf && s.sp.ninf) then (canonNaN f, flagNV true)
  else if s.sp.pinf then convInf f mode false
  else if s.sp.ninf then convInf f mode true
  else
    let x := sextInt n s.v
    roundFin f mode (decide (x < 0)) x.natAbs E

/-! ### The x128 container (R94) -/

/-- A container: VAL and special bits, and the grid exponent E. -/
structure X128 where
  sum : XSum
  e : Int
  deriving DecidableEq, Repr

/-- The raw 128 bits: NAN, PINF, NINF, VAL (R94, R358). -/
def rawOf (s : XSum) : Nat :=
  s.v % 2 ^ 125 + 2 ^ 125 * s.sp.ninf.toNat + 2 ^ 126 * s.sp.pinf.toNat + 2 ^ 127 * s.sp.nan.toNat

def sumOfRaw (x : Nat) : XSum :=
  { v := x % 2 ^ 125, sp := { nan := bitOf x 127, pinf := bitOf x 126, ninf := bitOf x 125 } }

/-- A container as 256 bits, reserved bits written as zero (R94). -/
def natOfX128 (c : X128) : Nat := rawOf c.sum + 2 ^ 128 * wrapNat 32 c.e

def x128OfNat (x : Nat) : X128 :=
  { sum := sumOfRaw (x % 2 ^ 128), e := sextInt 32 (x / 2 ^ 128) }

/-- A container in a vector register: lanes 8-63 are written as zero (R94, R156). -/
def vecOfX128 (c : X128) : Vec := BitVec.ofNat 2048 (natOfX128 c)

def x128OfVec (v : Vec) : X128 := x128OfNat (v.toNat % 2 ^ 256)

/-- The products of the lanes of two vectors added to a container (R157). -/
def accumProducts (t : LaneType) (c : X128) (a b : Vec) : X128 :=
  let w := ltWidth t
  let f := ltFmt t
  let step (s : XSum) (i : Nat) : XSum :=
    addTerm 125 c.e s (productTerm (decodeF f (lane w a i)) (decodeF f (lane w b i)))
  { c with sum := (List.range (lanes w)).foldl step c.sum }

/-- The lanes of a vector added to a container (R157). -/
def accumSingles (t : LaneType) (c : X128) (a : Vec) : X128 :=
  let w := ltWidth t
  let f := ltFmt t
  let step (s : XSum) (i : Nat) : XSum := addTerm 125 c.e s (some (decodeF f (lane w a i)))
  { c with sum := (List.range (lanes w)).foldl step c.sum }

/-- XADD on equal grids (R158). -/
def addX128 (a b : X128) : X128 :=
  { sum := { v := (a.sum.v + b.sum.v) % 2 ^ 125, sp := orSpecial a.sum.sp b.sum.sp }, e := a.e }

/-- floor(log2 |x|) of a finite non-zero value. -/
def log2Val : FVal → Option Int
  | .fin _ m e => if m = 0 then none else some (e + (Nat.log2 m : Int))
  | _ => none

/-- The greater of two candidates, none below all. -/
def maxOpt (a b : Option Int) : Option Int :=
  match a, b with
  | none, y => y
  | x, none => x
  | some x, some y => some (if x < y then y else x)

/-- XEXPP's max(p_i) over the f32 lanes whose product is finite and non-zero (R159). -/
def maxExpProducts (a b : Vec) : Option Int :=
  (List.range 64).foldl (fun acc i =>
    match log2Val (decodeF fmtF32 (lane 32 a i)), log2Val (decodeF fmtF32 (lane 32 b i)) with
    | some x, some y => maxOpt acc (some (x + y))
    | _, _ => acc) none

/-- XEXPS's max(p_i) over the finite non-zero f32 lanes (R159). -/
def maxExpSingles (a : Vec) : Option Int :=
  (List.range 64).foldl (fun acc i => maxOpt acc (log2Val (decodeF fmtF32 (lane 32 a i)))) none

/-- E raised to a candidate less a margin (R159). -/
def raiseE (c : X128) (p : Option Int) (margin : Int) : X128 :=
  match p with
  | none => c
  | some p => { c with e := if c.e < p - margin then p - margin else c.e }

/-- FSUMX (R155): the exact sum over all lanes on the grid of the smallest subnormal, wide enough
never to wrap, read out under R93. -/
def fsumx (t : LaneType) (mode : Mode) (a : Vec) : FRes :=
  let w := ltWidth t
  let f := ltFmt t
  let q := emin f - f.fbits
  let n := 2 ^ f.ebits + f.fbits + 16
  let s := (List.range (lanes w)).foldl
    (fun s i => addTerm n q s (some (decodeF f (lane w a i)))) { v := 0, sp := {} }
  readout n f mode s q

/-! ### Fixed trees and scans (R154) -/

/-- One level of the pairwise tree. -/
def treeLevel (op : Nat → Nat → FRes) : List Nat → List Nat × Flags
  | x :: y :: rest =>
    let (r, fl) := op x y
    let (rs, fls) := treeLevel op rest
    (r :: rs, orFlags fl fls)
  | l => (l, noFlags)

/-- The tree, by levels: `n` levels reduce 2^n values to one. -/
def treeReduce (op : Nat → Nat → FRes) : Nat → List Nat → FRes
  | 0, l => (l.headD 0, noFlags)
  | n + 1, l =>
    let (l', fl) := treeLevel op l
    let (r, fls) := treeReduce op n l'
    (r, orFlags fl fls)

/-- A scan from the running value `r` (R154): each value with the flags of its addition. -/
def scanFrom (op : Nat → Nat → FRes) : Nat → List Nat → List FRes
  | _, [] => []
  | r, x :: rest => op r x :: scanFrom op (op r x).1 rest

end Sys2Proof.Machine
end

