-- ==== Sys2Proof/Config.lean ====
section
/-! DEFINITION. What an implementation fixes and the manual leaves open: the free values (opaque, no
body: nothing can be proved of them beyond what holds for every value) and the uninterpreted
cryptographic functions of "Boot and minimal mode" and "Keys and attestation". -/
namespace Sys2Proof.Config

/-- FREE VALUE (log 11). A byte the device promises nothing about (R241, R253, R326, R423),
indexed by the model's counter `Dev.free`. -/
opaque freeByte : Nat → Byte

/-- FREE VALUE (log 12). The SHA3-512 digest of a byte string (R431, R433); the manual names the
function and does not define it. -/
opaque sha3 : List Byte → BitVec 512

/-- FREE VALUE (log 12). The SHA3-512 digest of a loaded image (R433): the manual gives an image no binary form. -/
opaque imageDigest : Image → BitVec 512

/-- FREE VALUE (log 12). Whether an ML-DSA-87 signature over a digest verifies under a public key
(R431). -/
opaque mldsaVerify : List Byte → BitVec 512 → List Byte → Bool

/-- FREE VALUE (log 12). The ML-DSA-87 signature of a digest under the device key, which never
leaves the security block (R433). -/
opaque mldsaSign : BitVec 512 → List Byte

/-- FREE VALUE (log 12). The device identity that ATTEST reports (R433). -/
opaque deviceIdentity : List Byte

/-- FREE VALUE (log 12). The SHA3-512 digest of the firmware public key, fused into the hub (R431). -/
opaque fusedKeyDigest : BitVec 512

/-- FREE VALUE (log 12). The firmware version below which nothing starts, fused into the hub (R431). -/
opaque fusedMinVersion : Nat

/-- FREE VALUE (log 60). Where the resident service keeps the tile table of a run's tensor: TTAB of its descriptor (R233). -/
opaque tableAddress : Nat → Nat → BitVec 64

/-- FREE VALUE (log 61). The program the stewards run in minimal mode, when no firmware has started (R431). -/
opaque minimalCode : List Byte

/-- FREE VALUE (log 13). Whether the steward self-test passes at the n-th start (R431). -/
opaque selfTestPasses : Nat → Bool

/-- FREE VALUE (log 13). Whether HBM and link training passes at the n-th start (R431). -/
opaque trainingPasses : Nat → Bool

end Sys2Proof.Config
end

