-- ==== Sys2Proof/Machine/State.lean ====
section
/-! DEFINITION. Everything the manual gives the machine, as plain data, and the state at power-on.
One activation is in focus (`State.act`): the one whose bundle issues; the others stand in `Dev.others`. -/
namespace Sys2Proof.Machine

/-- Why the machine can stop. -/
inductive Fault where
  /-- Raised by SOFT_ERROR_CORRECTION and SCRUB_UNCORRECTABLE on a device byte address that lies in no memory
  of R224 (not HBM, loft, scratch or steward scratchpad). Safe: no such byte exists. -/
  | noSuchAddress (addr : Nat)
  deriving DecidableEq, Repr

/-- Why an instruction is refused. -/
inductive Refusal where
  /-- Raised by an arm of `exec` whose instruction has no meaning yet. Safe. -/
  | notModelled (mnemonic : String)
  deriving DecidableEq, Repr

/-! ### Traps -/

/-- A trap record: TCAUSE, TPC, TADDR, TSTAMP, TINFO (R373). -/
structure TrapRec where
  cause : Word
  pc : Word
  addr : Word
  stamp : Word
  info : Word
  deriving DecidableEq, Repr

/-- The record of an activation that no trap has met (R373). -/
def TrapRec.zero : TrapRec := { cause := 0, pc := 0, addr := 0, stamp := 0, info := 0 }

/-! ### Registers of a slot -/

/-- The state of a clock (R125). -/
structure Clock where
  defd : Bool
  parent : Fin 14
  role : Fin 4
  pres : Bool
  deriving DecidableEq, Repr

/-- An undefined clock (R13); that its other bits read 0 is the model's choice (log 3). -/
def Clock.undef : Clock := { defd := false, parent := 0, role := 0, pres := false }

/-- k0: defined and present, without parent or pair (R125); that its parent bits read 0 is the model's choice (log 3). -/
def Clock.base : Clock := { defd := true, parent := 0, role := 0, pres := true }

/-- A level of the loop stack (R27). -/
structure Level where
  count : Word
  index : Word
  start : Nat
  len : Nat
  deriving DecidableEq, Repr

/-- The destination of a result. -/
inductive Dest where
  | s (r : SReg)
  | v (r : VReg)
  | latches
  deriving DecidableEq, Repr

/-- A fixed-latency result in flight (R24), and an entry of the snapshot buffer, where `due` is the
remaining distance r (R376). `stale`: its clock was redefined or freed since issue (R19). A timed load
(`timed`) has `arrived = false` until its data have come (R285, R286); `memx`: those data, or the snapshot entry, had an
uncorrectable error, whose deferred trap becomes pending when it lands (R384). `issued`: the advance cycle of its issue, which
orders results that land in one cycle (R25). -/
structure InFlight where
  dest : Dest
  val : Vec
  tag : Tag
  due : Nat
  issued : Nat
  stale : Bool
  timed : Bool
  arrived : Bool
  memx : Option TrapRec
  deriving DecidableEq, Repr

/-- What an interlocked result still waits for (R26, R256, R264, R384). -/
inductive Awaiting where
  /-- Nothing: it may land. -/
  | ready
  /-- A popped feed entry: it lands at this core cycle or later (R320). -/
  | after (cycle : Nat)
  /-- The value of an ORDERED ATOMR with this SEQ at the cell of this word (R256). -/
  | atomr (word seq : Nat)
  /-- The value of a live ATOMR with this SEQ, which its performance gives (R268, R291). -/
  | liveAtomr (seq : Nat)
  /-- Live bytes that the operation with this SEQ reads, at device address and pointer, in elements of `size` bytes, each on its
  own (R268; `none`: an element elsewhere, already read). `fenced`: a FENCE or an LDACQ of the same bundle comes first (R270), and
  all are still to be read; `signed`: as LD extends them. -/
  | live (seq size : Nat) (addrs : List (Option (Nat × Nat))) (signed fenced : Bool)
  /-- The value of an LDACQ with this SEQ behind a FENCE of its bundle, through this pointer; its performance gives it (R270),
  or, where a lower slot of the bundle accesses the word (`kept`), lets the value from before the bundle land (R42). -/
  | acquire (seq ptr : Nat) (kept : Bool)
  /-- Nothing will come: the request was refused (HOVF, R264) or its data had an uncorrectable error
  (MEMX, R384); this deferred trap is pending for it, or has been raised. -/
  | never (r : TrapRec)
  deriving DecidableEq, Repr

/-- A register awaiting an interlocked result (R26). -/
structure Pend where
  dest : Dest
  val : Vec
  tag : Tag
  stale : Bool
  wait : Awaiting
  deriving DecidableEq, Repr

/-! ### Feeds -/

/-- A batten (R313): COUNT and STRIDE pairs, innermost first. -/
structure Batten where
  ptr : Nat
  fmt : Fmt4
  out : Bool
  dims : List (Nat × Int)
  deriving DecidableEq, Repr

/-- An entry of a feed's buffer: its bytes, or the failure held in its place (R322). -/
structure FeedEntry where
  data : Vec
  fault : Option (Nat × Nat)
  deriving DecidableEq, Repr

/-- A bound feed (R312, R317, R319-R323): position (entries popped or pushed), buffer, the SEQ its element
accesses carry (R321), the SEQ of its FBIND, an outbound failure not yet delivered (R322), and the core cycle from which its unit
may move the next entry (R320). -/
structure Feed where
  raw : List Byte
  batten : Batten
  pos : Nat
  buf : List FeedEntry
  seq : Nat
  bound : Nat
  fault : Option (Nat × Nat)
  nextAt : Nat
  deriving DecidableEq, Repr

/-! ### Effects held back and live accesses -/

/-- Operations of ATOM and ATOMR (R287, R290). -/
inductive AtomOp where
  | add | min | max | minn | maxn | and | or | xor | xadd32
  | fetchadd | swap | cas (cmp : Nat) | fetchmin | fetchmax
  deriving DecidableEq, Repr

/-- A live access waiting to be performed at its home (R269), the FENCE that orders the accesses around it, or the LDACQ behind
one (R270). `count` and `status` are an engine's updates of an arrival word (R329, R330). -/
inductive LiveOp where
  | store (bytes : List Byte)
  | release (bytes : List Byte) (scope : Scope)
  | atom (op : AtomOp) (width operand : Nat)
  | atomr (op : AtomOp) (width operand : Nat)
  | fence (scope : Scope)
  | acquire (scope : Scope)
  | count (bytes : Nat)
  | status (code : Nat)
  deriving DecidableEq, Repr

/-- A command block of CPY or CPYSUM (R325). -/
structure CopyBlock where
  src : Nat
  dst : Nat
  ndim : Nat
  esize : Nat
  srcLogical : Bool
  dstLogical : Bool
  counts : List Nat
  sstr : List Int
  dstr : List Int
  deriving DecidableEq, Repr

/-- A command block of COLL (R416). -/
structure CollBlock where
  op : Nat
  type : Nat
  mode : Nat
  redop : Nat
  root : Nat
  group : Nat
  src : Nat
  dst : Nat
  count : Nat
  tag : Nat
  deriving DecidableEq, Repr

/-- A held effect of a speculative activation (R189), with its SEQ. -/
inductive HeldOp where
  | live (addr : Nat) (op : LiveOp)
  | launch (packet : Packet) (target : Word) (status : Nat)
  | resolve (cell inst : Nat) (outcome : Bool)
  | coll (block : CollBlock) (arrival : Nat) (record : Option Nat)
  deriving DecidableEq, Repr

/-- An effect, the SEQ that orders its release (R189), and the core that issued it (R270, R324). -/
structure Held where
  seq : Nat
  op : HeldOp
  core : Nat
  deriving DecidableEq, Repr

/-! ### Activations -/

/-- Where an activation stands: core (0-31, or 32-35 for the stewards), slot, the physical bank of each
logical scratch bank (R192, R227). -/
structure Place where
  core : Nat
  slot : Nat
  banks : List Nat
  deriving DecidableEq, Repr

/-- The condition of a WAIT that stalls (R118). -/
inductive WaitCond where
  | gen (ptr : Nat) (target : Nat)
  | ridge
  | eq (ptr : Nat) (value : Word)
  | ge (ptr : Nat) (value : Word)
  | feed (e : EReg)
  deriving DecidableEq, Repr

/-- The life of an activation (R173, R177, R375, R387, R401). -/
inductive Status where
  /-- A steward slot of a device that has not booted. -/
  | off
  /-- Waiting for a slot (R181), or saved and waiting for one (R194). -/
  | pending
  /-- In a slot, ready to issue. -/
  | ready
  /-- In a slot, stalled on an unsatisfied WAIT (R119). -/
  | waiting (c : WaitCond)
  /-- In a slot, frozen by a trap (R375). -/
  | frozen
  /-- In a slot, parked by a pre-emption and not yet saved (R387). -/
  | parked
  /-- END has committed (R116). -/
  | ended
  /-- Retired (R177); its stamp still exists (R206). -/
  | retired
  /-- A steward slot parked by HALT (R401). -/
  | halted
  deriving DecidableEq, Repr

/-- What is to happen to a frozen activation's trap (R190, R378-R383). -/
inductive FrozenStage where
  /-- Held while the activation is speculative. -/
  | held
  /-- Met when the activation was no longer speculative: delivered once the effects held back are released (R189). -/
  | behind
  /-- Delivered: waits for the service (XLAT) or for a handler entry. -/
  | delivered
  /-- A handler serves it under this handle entry. -/
  | served
  deriving DecidableEq, Repr

/-- A frozen trap. -/
structure Frozen where
  record : TrapRec
  stage : FrozenStage
  deriving DecidableEq, Repr

/-- A factor of L (R183): the unresolved cells on the path of an initial activation's task, or a SPAWNC's
immediate probability `p`, or its site where `p` is 0, on its cell. -/
inductive Factor where
  | path (task : Nat)
  | spawn (cell inst : Nat) (p : Nat) (site : Nat)
  deriving DecidableEq, Repr

/-- An element of an accumulator tile (R341). -/
structure Elem where
  v : BitVec 96
  nan : Bool
  pinf : Bool
  ninf : Bool
  deriving DecidableEq, Repr

/-- The zero element. -/
def Elem.zero : Elem := { v := 0, nan := false, pinf := false, ninf := false }

/-- An accumulator tile (R341). `elems` lists the elements (64 rows × 384 columns, number 384 × row + column)
that differ from the zero element and `scales` the column scales that differ from 0x3F80_0000, by rising
number. `busy` holds one entry for each command that keeps a row busy: the row, and the core cycle at which
the hold ends once it is known (R352, R353). -/
structure Tile where
  elems : List (Nat × Elem)
  e : Int
  scales : List (Nat × Nat)
  tag : Tag
  busy : List (Nat × Option Nat)
  deriving DecidableEq, Repr

/-- A tile nothing has written: its values are the model's choice (log 3), its tag stale (R339). -/
def Tile.init : Tile := { elems := [], e := 0, scales := [], tag := tagStale, busy := [] }

/-- A weight bank (R338, R345): the format word the last WLD latched (`none` is an empty bank), the format word and
the stream entries (R346) of its contents, ready or not. `readyAt`: the core cycle at which it is ready once its
last entry is taken. -/
structure Bank where
  fmt : Option Nat
  cur : Option Nat
  entries : List Vec
  ready : Bool
  readyAt : Option Nat
  deriving DecidableEq, Repr

/-- An empty bank (R339). -/
def Bank.empty : Bank := { fmt := none, cur := none, entries := [], ready := false, readyAt := none }

/-- An MMA or MMAS on the multiply path, with its feed's format and the latches at its issue (R348-R351). `added`: the elements its
rows have changed, by number, as they would stand without it (R355); `holds`: the rows that have entered, with the ends of their
holds (R353). -/
structure MulCmd where
  owner : ActKey
  serial : Nat
  tile : AReg
  bank : Bool
  feed : EReg
  afmt : Fmt4
  sparse : Bool
  first : Nat
  n : Nat
  done : Nat
  latches : List Int
  added : List (Nat × Elem)
  holds : List (Nat × Nat)
  deriving DecidableEq, Repr

/-- A WLD on the weight path (R345, R351); `was`: its bank before the first entry it took (R355). -/
structure WldCmd where
  owner : ActKey
  serial : Nat
  bank : Bool
  feed : EReg
  fmt : Nat
  done : Nat
  was : Option Bank
  deriving DecidableEq, Repr

/-- What a context image keeps beyond the slot's registers (R392): scratch bytes by scratch offset, the
owned tiles, banks and latches. -/
structure Saved where
  scratch : List Host.Cell
  tiles : List (AReg × Tile)
  banks : Option (Bank × Bank)
  latches : Vector (BitVec 8) 8
  /-- The device address CTXSV wrote the image to; `none` when the resident service keeps it. -/
  image : Option Nat
  /-- SEQ as the context was saved: what a handler has used since is counted on (R380). -/
  seq : BitVec 32
  /-- The uncorrectable errors of the saved snapshot entries, in their order (R384): an image has no place for them. -/
  memx : List (Option TrapRec)
  /-- The scratch offsets of kept bytes that hold an uncorrectable error (R384). -/
  bad : List Nat
  deriving DecidableEq, Repr

/-- Why a bundle stays stalled at issue: until its loads would be settled (R255), or until the ridge has moved from where it
stood when a cell was refused (R263). -/
inductive BundleHold where
  | settled
  | ridge (at_ : Option (Nat × Nat))
  deriving DecidableEq, Repr

/-- An activation, or a steward slot: the registers of R11 and what the later layers add. -/
structure Act where
  key : ActKey
  /-- The stamp its operations carry (R171); a handler's is the trapped activation's (R380). -/
  stamp : Stamp
  /-- The task whose declarations give scratch, feeds and tiles; a handler's own task (R380). -/
  task : Nat
  status : Status
  place : Option Place
  s : Vector Word 32
  sTag : Vector Tag 32
  v : Vector Vec 32
  vTag : Vector Tag 32
  eTag : Vector Tag 8
  clocks : Vector Clock 14
  fpc : Word
  vpart : Word
  /-- Innermost level first (R27). -/
  loops : List Level
  seq : BitVec 32
  pc : Nat
  /-- The advance-cycle counter (R22). -/
  adv : Nat
  /-- A body's last bundle has completed and its end of pass is due (R29, R113). -/
  passEnd : Bool
  /-- The bundle that issues next stands at a boundary of R385: after a loop pass or after a YIELD. -/
  boundary : Bool
  /-- Its bundle's last issue stalled at an END (R334) or on a value-returning ORDERED atomic (R256). -/
  stalledAtPoint : Bool
  inflight : List InFlight
  pend : List Pend
  snapshot : List InFlight
  /-- The trap-record CSRs (R373). -/
  trap : TrapRec
  frozen : Option Frozen
  /-- Pending deferred traps, oldest first, at most eight (R372); `deferredHeld` are those the units keep. -/
  deferred : List TrapRec
  deferredHeld : List TrapRec
  feeds : Vector (Option Feed) 8
  held : List Held
  incarnation : BitVec 16
  weight : Word
  /-- The weight at the first bundle (R199). -/
  weight0 : Word
  factors : List Factor
  parent : Option Stamp
  /-- The argument it starts with (R13). -/
  arg : Word
  /-- A pre-emption request is pending, and the bundles committed since it came (R385, R386). -/
  preempt : Bool
  sinceRequest : Nat
  /-- The handle of a frozen, parked or saved activation in its run's table (R383); 0 for none. -/
  handle : Word
  /-- For a handler activation the handle of the activation it serves, 0 for none (R380, R381). -/
  serves : Word
  /-- Registers whose stored value holds an uncorrectable error, and in which 64-bit word of it (R384). -/
  badRegs : List (Dest × Nat)
  saved : Option Saved
  /-- It may start only once the ridge reaches its phase (R263). -/
  onlyAtRidge : Bool
  /-- The core cycle since which it has waited without a slot (R195). -/
  waitSince : Nat
  /-- PREEMPT of a steward slot (R404): REQ, CORE, SLOT. -/
  preemptCsr : Word
  /-- The next bundle stays stalled at issue (R255, R263). -/
  hold : Option BundleHold
  /-- MODEL: it reads live memory at the home, past its core's L1: it has run beside another activation of its stamp since it took its
  slot (R269, R380, log 43). -/
  atHome : Bool
  deriving DecidableEq, Repr

/-! ### Cores -/

/-- A physical scratch bank (R228). -/
inductive BankState where
  | free
  | clearing (doneAt : Nat)
  | owned
  deriving DecidableEq, Repr

/-- The power of a core (R195). -/
inductive Power where
  | awake
  | gated
  | waking (doneAt : Nat)
  deriving DecidableEq, Repr

/-- A compute core (R2, R11, R195, R223, R228, R243, R338-R353, R434). -/
structure Core where
  power : Power
  emptySince : Nat
  temp : Nat
  excluded : Bool
  banks : Vector BankState 16
  pointers : Vector (BitVec 16) 8
  /-- The slot that is running (R193). -/
  current : Option Nat
  tiles : Vector Tile 16
  w0 : Bank
  w1 : Bank
  latches : Vector (BitVec 8) 8
  mulq : List MulCmd
  wq : List WldCmd
  serial : Nat
  /-- The core cycles from which the next row may enter the array and the next weight entry be taken (R353). -/
  rowAt : Nat
  entryAt : Nat
  /-- Sectors of live memory the L1 holds, oldest first: device address and 32 bytes (R243, R269). -/
  l1 : List (Nat × List Byte)
  /-- Sectors of live memory held since before a store that a core of this die made: an acquire at die scope drops them (R243,
  R270). -/
  l1Die : List Nat
  /-- Sectors of STAGED memory it holds, whose bytes no result depends on: device address, run, and the stamp of the activation
  whose writes the sector still owes to its home (R243). -/
  l1Staged : List (Nat × Nat × Option Stamp)
  /-- Sectors of live memory that PREF has fetched and no load has read yet: their bytes follow the home (R296). -/
  l1Pref : List Nat
  deriving DecidableEq, Repr

/-! ### Stamped memory -/

/-- The operation of a history entry before compaction (R246, R248-R250): a store's byte mask, an operation's
width in bits and, for 32 bits, its byte offset in the word. The entries that R248 and R249 compact are kept apart and counted as one
(R263), so that a squash can take one activation's share out of them (R262). -/
inductive HistOp where
  | store (mask : BitVec 8)
  | atom (op : AtomOp) (width offset : Nat)
  | atomr (op : AtomOp) (width offset : Nat)
  deriving DecidableEq, Repr

/-- One operation in a cell's history: the stamp extended with SEQ, and the lane (R283). -/
structure Hist where
  stamp : Stamp
  seq : Nat
  lane : Nat
  op : HistOp
  val : Nat
  deriving DecidableEq, Repr

/-- A reader record (R254). -/
structure Reader where
  stamp : Stamp
  inc : BitVec 16
  prior : Word
  deriving DecidableEq, Repr

/-- A cell (R246) of an ORDERED word, named by its device address. -/
structure Cell where
  word : Nat
  run : Nat
  hist : List Hist
  readers : List Reader
  deriving DecidableEq, Repr

/-- A request on its way to a cell (R260); `ptr` is the word's address as the program issued it (R264); `reserved`: it was
granted a cell as it issued, since a speculative activation's bundle issues only where there is one (R263). -/
structure CellReq where
  word : Nat
  run : Nat
  who : ActKey
  ptr : Nat
  entry : Hist
  reserved : Bool
  deriving DecidableEq, Repr

/-- A repair notice on its way (R260, R261), and the phase whose entry, or whose entry's cancellation, caused it: the ridge
does not leave that phase before the notice has been acted on (R258). -/
structure Notice where
  run : Nat
  stamp : Stamp
  inc : BitVec 16
  cause : Nat × Nat
  deriving DecidableEq, Repr

/-- Who performs a live access for an activation: its own slot, an engine (R271), or the queue agent (R221). -/
inductive LiveUnit where
  | slot | engine | agent
  deriving DecidableEq, Repr

/-- A live access on its way to its home (R269). `core` is the core it was issued from; `reach`: before it is performed at the
home the parties of that core (1) or die (2) may already read it (R270). `released`: a held effect, performed in SEQ order
(R294). `counts`: of an engine's write, the arrival word of its command and the command's bytes up to and with it; 0 for STATUS
and the record, which come before a count of theirs (R272, R329, R330). -/
structure LiveReq where
  who : ActKey
  seq : Nat
  addr : Nat
  op : LiveOp
  core : Nat
  reach : Nat
  released : Bool
  unit : LiveUnit
  counts : Option (Nat × Nat)
  deriving DecidableEq, Repr

/-- Bytes of a STAGED tensor that an activation accessed (R241): used to tell a race. `kind` 0 read, 1 write,
2 + 2 × op + width for an ATOM. -/
structure StagedAccess where
  run : Nat
  stamp : Stamp
  lo : Nat
  len : Nat
  kind : Nat
  deriving DecidableEq, Repr

/-! ### Engines -/

/-- An engine command's use of its arrival word (R271, R272, R329), kept until its activation has retired: the size of its elements
in bytes, its bytes counted so far at the word, those that a generation covers, and those whose generation a WAIT of the
activation has found, with the SEQ from which on it sees them. -/
structure EngineUse where
  run : Nat
  stamp : Stamp
  seq : Nat
  arrival : Nat
  size : Nat
  counted : Nat
  covered : Nat
  seen : List (Nat × Nat)
  deriving DecidableEq, Repr

/-- A copy command in a die's queue (R324-R333): elements done, the CRC so far, bytes written and not yet
counted at the arrival word, the failure that stopped it (trap code, address), whether one of the die's engines has it (R324),
whether its STATUS and record have been written (R330, R331), the bytes taken of a live source element of more than one word,
not yet written (R268), and whether its failure has been raised while its activation was speculative (R190, R330). -/
structure CopyCmd where
  who : ActKey
  stamp : Stamp
  seq : Nat
  core : Nat
  block : CopyBlock
  arrival : Nat
  record : Option Nat
  done : Nat
  crc : Nat
  delivered : Nat
  uncounted : Nat
  failed : Option (Nat × Nat)
  started : Bool
  closing : Bool
  took : Option (List Byte)
  raised : Bool
  deriving DecidableEq, Repr

/-- A collective command (R415-R424), its number among the device's commands of its key (R417), the peers' matched commands
in the order of their arrival, and this device's contribution once it is taken (R268). -/
structure CollCmd where
  who : ActKey
  stamp : Stamp
  seq : Nat
  die : Nat
  core : Nat
  block : CollBlock
  arrival : Nat
  record : Option Nat
  ordinal : Nat
  peers : List PeerCmd
  took : Option (List Byte)
  deriving DecidableEq, Repr

/-! ### Runs -/

/-- A table of a tensor: its device address, TTAB of the descriptor (R233), the entries the resident service keeps and the copies
the units hold (R235, R237, R400), by tile number. -/
structure TensorTable where
  handle : Nat
  ttab : BitVec 64
  entries : List (Nat × TileEntry)
  view : List (Nat × TileEntry)
  deriving DecidableEq, Repr

/-- A value of a condition cell (R176). -/
structure CellValue where
  cell : Nat
  inst : Nat
  value : Bool
  deriving DecidableEq, Repr

/-- A use of an unresolved cell by a SPAWNC (R207, R208), and the activation that executed it: a squash or pruning of that
activation withdraws it. -/
structure SpawnUse where
  spawner : Stamp
  cell : Nat
  inst : Nat
  task : Nat
  site : Option Nat
  deriving DecidableEq, Repr

/-- An admitted instant (R181, R197, R200): the weight that has returned. -/
structure Instant where
  num : Nat
  returned : Nat
  deriving DecidableEq, Repr

/-- An entry of a run's table of frozen and parked activations (R383). -/
structure HandleEntry where
  entry : Nat
  gen : BitVec 16
  who : Option ActKey
  deriving DecidableEq, Repr

/-- What the likelihoods of a run rest on, as it stood before the first resolution of a core cycle: the distributors still go by it in
that cycle (R185). -/
structure LikeInputs where
  cycle : Nat
  values : List CellValue
  deadAfter : List (Nat × Nat)
  predictors : Vector (BitVec 8 × Bool) 64
  sites : Vector (BitVec 8 × Bool) 64
  deriving DecidableEq, Repr

/-- A run (R217, R220). -/
structure Run where
  num : Nat
  imageHandle : Nat
  image : Image
  queue : Nat
  dieMask : BitVec 4
  keySlot : Nat
  reach : Nat
  allowance : Nat
  arg : Word
  widths : List (Nat × Nat)
  /-- Likelihood registers of pk0-pk63 (R186): p and pin; pk0's is unused. -/
  predictors : Vector (BitVec 8 × Bool) 64
  sites : Vector (BitVec 8 × Bool) 64
  values : List CellValue
  /-- Cells declared ahead whose clock was found absent: false for every instant after (R180). -/
  deadAfter : List (Nat × Nat)
  /-- The inputs before the last core cycle in which a cell resolved (R185). -/
  likeWas : Option LikeInputs
  uses : List SpawnUse
  instants : List Instant
  nextInstant : Nat
  tables : List TensorTable
  /-- Frames allotted to the run: HBM and loft (R231, R236, R432). -/
  hbmFrames : List Nat
  loftFrames : List Nat
  /-- The loft window: vault and its frames in order (R231). -/
  window : List (Nat × List Nat)
  handles : List HandleEntry
  /-- Handlers started so far: numbers their keys. -/
  handlerSerial : Nat
  deriving DecidableEq, Repr

/-! ### Queues, host, links -/

/-- A virtual queue (R215, R216): `ring` holds the packets from the parse position on; `judged`: its head has passed the
rejection checks and waits (R220). The ring is kept apart from `Dev.mem` and takes no frames (log 35). -/
structure Queue where
  index : Nat
  gen : BitVec 16
  live : Bool
  priority : Nat
  capacity : Nat
  ring : List Packet
  parsed : Nat
  run : Option Nat
  marker : Word
  rejects : Nat
  rejectCode : Nat
  resident : Bool
  judged : Bool
  deriving DecidableEq, Repr

/-- A push of a LAUNCH on its way to the queue agent, or sent to another device and waiting for its outcome (R221): the launching
activation, its SEQ and core, the device and the queue handle it goes to, the packet, and the home of the status word. -/
structure LaunchPush where
  who : ActKey
  seq : Nat
  core : Nat
  device : Nat
  handle : Nat
  packet : Packet
  status : Nat
  deriving DecidableEq, Repr

/-- What a reply carries beyond its status (R427-R433). -/
inductive ReplyData where
  | none
  | handle (h : Nat)
  | code (c : Nat)
  | bytes (bs : List Byte)
  | report (body : List Byte) (signature : List Byte)
  | resync (lines : List (String × List Nat))
  deriving DecidableEq, Repr

/-- A reply to a host request (R427). -/
structure Reply where
  req : Word
  status : Nat
  data : ReplyData
  deriving DecidableEq, Repr

/-- A trap without a frozen activation, waiting for a handler (R381): run, stamp, record, the SEQ its next operation would carry,
and where a handler whose END had committed met it the record that handler served: the run is torn down with both (R382). -/
structure OrphanTrap where
  run : Nat
  stamp : Stamp
  record : TrapRec
  seq : BitVec 32
  met : Option TrapRec
  deriving DecidableEq, Repr

/-- A run torn down whose tables, frames and key slot the resident service has not reclaimed yet, and its ridge at the tear-down
(R222, R430, R432). -/
structure TornRun where
  run : Run
  ridge : Nat × Nat
  deriving DecidableEq, Repr

/-- A kept trap record of a run torn down (R379, R382). -/
structure KeptRecord where
  run : Nat
  record : TrapRec
  deriving DecidableEq, Repr

/-- A memory-encryption key slot (R244, R432). -/
structure KeySlot where
  key0 : BitVec 256
  key1 : BitVec 256
  deriving DecidableEq, Repr

/-- A Woush port (R413): up, and the consecutive failed resends of the flit it sends. -/
structure Port where
  up : Bool
  resends : Nat
  deriving DecidableEq, Repr

/-- A route of R414: the ports of the direct link, or of the link to the intermediate device. -/
structure Route where
  device : Nat
  ports : List Nat
  deriving DecidableEq, Repr

/-- What an access budget grants, per period of 4,096 cycles (R336). -/
structure Shares where
  program : Nat
  settling : Nat
  scrubbing : Nat
  copies : Nat
  collectives : Nat
  checksums : Nat
  deriving DecidableEq, Repr

/-- The state of the start-up (R431). -/
inductive BootPhase where
  | off
  | starting (since : Nat)
  | running
  | minimal
  deriving DecidableEq, Repr

/-- A controller's copy of a run's ridge that may lag behind the true one until a core cycle (R257). -/
structure RidgeCopy where
  run : Nat
  ridge : Option (Nat × Nat)
  till : Nat
  deriving DecidableEq, Repr

/-- One vault controller beyond its cells (R246, R257, R263): the capacity counter, and the lagging copies of ridges; a run with
none listed has its true ridge here. -/
structure Vault where
  squashes : Nat
  copies : List RidgeCopy
  deriving DecidableEq, Repr

/-! ### The device -/

/-- The whole device but the activation in focus. -/
structure Dev where
  cycle : Nat
  mem : List Host.Cell
  /-- MODEL: counts free values taken (log 11). -/
  free : Nat
  number : Nat
  domain : List Nat
  ports : Vector Port 12
  /-- The Ultra Ethernet ports and the management port are up (R2, R427, R430). -/
  ethernet : Vector Bool 8
  management : Bool
  routes : List Route
  others : List Act
  runs : List Run
  torn : List TornRun
  cores : Vector Core 32
  /-- The running slot of each steward core (R426). -/
  stewards : Vector (Option Nat) 4
  pwake : Word
  pointers : Vector (Vector (BitVec 16) 8) 4
  /-- The core cycles up to which each distributor has made its placement and started its wake (R192, R195): one of
  each in a cycle. -/
  placedAt : Vector Nat 4
  wokeAt : Vector Nat 4
  /-- The activation each distributor placed in its last cycle with a choice; `none` where a lower die had taken it (R192). -/
  placedKey : Vector (Option ActKey) 4
  queues : List Queue
  counters : Vector Word 256
  keys : List (Nat × KeySlot)
  images : List (Nat × Image)
  nextImage : Nat
  cells : List Cell
  cellq : List CellReq
  notices : List Notice
  vaults : Vector Vault 32
  liveq : List LiveReq
  staged : List StagedAccess
  copies : Vector (List CopyCmd) 4
  colls : List CollCmd
  /-- The COLL commands entered since the last RESET, by key: GROUP, TAG, number (R417). -/
  collCounts : List ((Nat × Nat) × Nat)
  engineUses : List EngineUse
  remote : List LaunchPush
  /-- Pushes that reach the queue agent in this core cycle (R221). -/
  pushes : List LaunchPush
  /-- HBM frames used by an earlier run and not cleared since (R432); frames in use are in the runs. -/
  usedFrames : List Nat
  /-- The shares of each HBM home slice and of each vault controller (R225, R336). -/
  homeShares : Vector Shares 256
  vaultShares : Vector Shares 32
  period : Nat
  corrected : Nat
  reported : List Nat
  kept : List KeptRecord
  replies : List Reply
  orphanTraps : List OrphanTrap
  boot : BootPhase
  /-- A RESET in progress: its request, not yet answered (R429, R435). -/
  resetting : Option Word
  /-- The firmware the stewards run (R431). -/
  running : Option Firmware
  activeBank : Option Firmware
  spareBank : Option Firmware
  failedStarts : Nat
  reasons : List Nat
  starts : Nat
  seamResends : Nat
  /-- The temperature of each HBM stack, reported by RESYNC (R430). -/
  stackTemps : Vector Nat 8
  /-- Device bytes whose stored data hold an uncorrectable error (R384). -/
  bad : List Nat
  /-- Code bytes, as (run, address), whose fetch meets one (R384); the run is `none` for the stewards' firmware. -/
  badCode : List (Option Nat × Nat)
  deriving DecidableEq, Repr

/-! ### The bundle being issued -/

/-- What a bundle's control slot decided. -/
inductive Ctl where
  | next
  | jump (target : Nat)
  | pushLevel (l : Level)
  | skipBody (after : Nat)
  | popLevel (after : Nat)
  | endPass
  | yield
  | endAct
  | halt
  deriving DecidableEq, Repr

/-- How the issue of a bundle stands. -/
inductive IssueStatus where
  | running
  | trapped
  | stalled
  /-- Stalled at a point at which the core may switch slots (R193). -/
  | switched
  deriving DecidableEq, Repr

/-- MODEL: the bundle in issue (log 2): which slot, its words, the payloads of the X slots before it (R56),
the flags its slots set (R84), the clocks it redefined or freed (R19), the control outcome. -/
structure Iss where
  status : IssueStatus
  slot : Nat
  words : List (BitVec 32)
  ext : List (BitVec 21)
  flags : Nat
  freed : List (Fin 14)
  ctl : Ctl
  deriving DecidableEq, Repr

/-- One choice of the schedule. -/
inductive Choice where
  | ev (i : Instr)
  | issue (core : Nat)
  | tick
  /-- A core's L1 gives up a line (R243). -/
  | evict (core : Fin 32) (line : Nat)
  /-- Live access `n` becomes visible one level further out, to its core and then to its die (R269, R270). -/
  | widen (n : Nat)
  /-- Element `i` of the `n`-th result that awaits live bytes is read only now (R268). -/
  | reread (who : ActKey) (n i : Nat)
  /-- Word `i` of the bytes a copy command, or of the contribution a collective command, has taken is read only now (R268). -/
  | rereadCopy (die : Fin 4) (n i : Nat)
  | rereadColl (n i : Nat)
  /-- The link of an Ultra Ethernet port, or of the management port, goes up or down (R427, R430). -/
  | ethernetLink (port : Fin 8) (up : Bool)
  | managementLink (up : Bool)
  /-- The RESET in progress is over and is answered (R435). -/
  | resetDone
  /-- The resident service has reclaimed the tables, frames and key slot of a run torn down (R222, R432). -/
  | reclaimed (run : Nat)
  /-- The flit whose resends a Woush port counts is received intact (R413). -/
  | flitIntact (port : Fin 12)
  /-- The resident service sets the shares of an HBM home slice or of a vault controller (R336). -/
  | homeShares (slice : Fin 256) (x : Shares)
  | vaultShares (vault : Fin 32) (x : Shares)
  /-- A vault controller's copy of a run's ridge begins to lag, for at most 400 cycles (R257). -/
  | ridgeLag (vault : Fin 32) (run : Nat)
  /-- The surroundings spoil beyond correction a stored byte, a byte of a run's code (`none`: of the firmware), a register
  of an activation, or an entry of its snapshot buffer (R384). -/
  | corrupt (addr : Nat)
  | corruptCode (run : Option Nat) (addr : Nat)
  | corruptReg (who : ActKey) (reg : Dest) (word : Fin 32)
  | corruptSnap (who : ActKey) (n : Nat)
  deriving DecidableEq, Repr

/-- The machine. `dev0` and `act0` are the copies taken when the bundle began to issue: its slots read from
them (R23, R42) and a cancelled bundle restores them. `agenda` names which steps come next; with none, the
step chooses by its own fixed order (log 1). -/
structure State where
  dev : Dev
  act : Act
  dev0 : Dev
  act0 : Act
  iss : Iss
  agenda : List Choice
  deriving DecidableEq, Repr

/-! ### Reset -/

/-- An activation as it stands at its first bundle (R13), unplaced and pending: values of s2-s31 and v0-v31 are
the model's choice (log 3). -/
def Act.fresh (key : ActKey) (stamp : Stamp) (task : Nat) (arg : Word) (weight : Word) : Act :=
  { key := key, stamp := stamp, task := task, status := .pending, place := none
    s := (Vector.replicate 32 0).set 1 arg
    sTag := ((Vector.replicate 32 tagStale).set 0 tagUniversal).set 1 0
    v := Vector.replicate 32 0, vTag := Vector.replicate 32 tagStale
    eTag := Vector.replicate 8 tagUniversal
    clocks := (Vector.replicate 14 Clock.undef).set 0 Clock.base
    fpc := 1, vpart := 0, loops := [], seq := 0, pc := 0, adv := 0, passEnd := false, boundary := false
    stalledAtPoint := false, inflight := [], pend := [], snapshot := [], trap := TrapRec.zero, frozen := none
    deferred := [], deferredHeld := [], feeds := Vector.replicate 8 none, held := []
    incarnation := 0, weight := weight, weight0 := weight, factors := [], parent := none, arg := arg
    preempt := false, sinceRequest := 0, handle := 0, serves := 0, badRegs := [], saved := none, onlyAtRidge := false
    waitSince := 0, preemptCsr := 0, hold := none, atHome := false }

/-- A steward slot before the boot ROM starts it. -/
def Act.steward (core : Fin 4) (slot : Fin 8) : Act :=
  { Act.fresh (.steward core slot) { inst := 0, task := 0, index := 0 } 0 0 0 with
    status := .off, place := some { core := 32 + core.val, slot := slot.val, banks := [] } }

/-- A core at power-on: gated (log 5), at 25 degrees (log 6). -/
def Core.reset : Core :=
  { power := .gated, emptySince := 0, temp := 25, excluded := false
    banks := Vector.replicate 16 .free, pointers := Vector.replicate 8 0, current := none
    tiles := Vector.replicate 16 Tile.init, w0 := Bank.empty, w1 := Bank.empty
    latches := Vector.replicate 8 0, mulq := [], wq := [], serial := 0, rowAt := 0, entryAt := 0, l1 := [], l1Die := [], l1Staged := [], l1Pref := [] }

/-- The steward slots but slot 0 of steward 0, which is in focus at power-on. -/
def stewardSlots : List Act :=
  [(0 : Fin 4), 1, 2, 3].flatMap fun c =>
    ([(0 : Fin 8), 1, 2, 3, 4, 5, 6, 7].filter fun k => c != 0 || k != 0).map fun k => Act.steward c k

/-- The device at power-on. -/
def Dev.reset : Dev :=
  { cycle := 0, mem := [], free := 0, number := 0, domain := [0]
    ports := Vector.replicate 12 { up := true, resends := 0 }, ethernet := Vector.replicate 8 true, management := true
    routes := [], others := stewardSlots, runs := [], torn := [], cores := Vector.replicate 32 Core.reset
    stewards := Vector.replicate 4 (some 0), pwake := 0xF000
    pointers := Vector.replicate 4 (Vector.replicate 8 0)
    placedAt := Vector.replicate 4 0, wokeAt := Vector.replicate 4 0, placedKey := Vector.replicate 4 none
    queues := [], counters := Vector.replicate 256 0, keys := [], images := [], nextImage := 1
    cells := [], cellq := [], notices := [], vaults := Vector.replicate 32 { squashes := 0, copies := [] }
    liveq := [], staged := [], copies := Vector.replicate 4 [], colls := [], collCounts := [], engineUses := [], remote := [], pushes := []
    usedFrames := []
    homeShares := Vector.replicate 256 { program := 2560, settling := 0, scrubbing := 64, copies := 768, collectives := 512, checksums := 192 }
    vaultShares := Vector.replicate 32 { program := 2304, settling := 512, scrubbing := 64, copies := 640, collectives := 384, checksums := 192 }
    period := 0, corrected := 0, reported := [], kept := [], replies := [], orphanTraps := []
    boot := .off, resetting := none, running := none, activeBank := none, spareBank := none, failedStarts := 0, reasons := [], starts := 0
    seamResends := 0, stackTemps := Vector.replicate 8 25, bad := [], badCode := [] }

/-- No bundle in issue. -/
def Iss.idle : Iss :=
  { status := .running, slot := 0, words := [], ext := [], flags := 0, freed := [], ctl := .next }

/-- The machine at power-on, before the boot ROM runs (R431). -/
def State.reset : State :=
  { dev := Dev.reset, act := Act.steward 0 0, dev0 := Dev.reset, act0 := Act.steward 0 0
    iss := Iss.idle, agenda := [] }

end Sys2Proof.Machine
end

