-- ==== Sys2Proof/Machine/Memory.lean ====
section
/-! DEFINITION. Byte-addressed device memory in its canonical form (R4, R224-R228): HBM frames from address 0,
the loft from 2^40, each core's scratchpad from 2^41, the stewards' from 2^42. The device addresses are the
model's numbering; programs reach memory through generic pointers only (R230). -/
namespace Sys2Proof.Machine

/-- What a byte nothing has written reads as (log 7). -/
def blankByte : Byte := 0

/-- The byte at a device address. -/
def memRead : List Host.Cell → Nat → Byte
  | [], _ => blankByte
  | (k, b) :: rest, a => if k = a then b else if a < k then blankByte else memRead rest a

/-- Write one byte, keeping the list sorted and free of blank bytes. -/
def memWrite : List Host.Cell → Nat → Byte → List Host.Cell
  | [], a, b => if b = blankByte then [] else [(a, b)]
  | (k, c) :: rest, a, b =>
    if a < k then (if b = blankByte then (k, c) :: rest else (a, b) :: (k, c) :: rest)
    else if k = a then (if b = blankByte then rest else (a, b) :: rest)
    else (k, c) :: memWrite rest a b

/-- Whether every address of the list is above `lo` and rising, and no entry is blank. -/
def memSorted : Nat → List Host.Cell → Bool
  | _, [] => true
  | lo, (k, b) :: rest => decide (lo ≤ k) && b != blankByte && memSorted (k + 1) rest

/-- The canonical form of a memory. -/
def memWf (m : List Host.Cell) : Bool := memSorted 0 m

/-- `n` bytes from an address upward. -/
def memReadBytes (m : List Host.Cell) (a : Nat) : Nat → List Byte
  | 0 => []
  | n + 1 => memRead m a :: memReadBytes m (a + 1) n

/-- The little-endian number in `n` bytes (R4). -/
def memReadNat (m : List Host.Cell) (a n : Nat) : Nat := natOfBytes (memReadBytes m a n)

/-- Write bytes from an address upward. -/
def memWriteBytes (m : List Host.Cell) (a : Nat) : List Byte → List Host.Cell
  | [] => m
  | b :: bs => memWriteBytes (memWrite m a b) (a + 1) bs

/-- Blank the bytes of `[lo, lo + n)`. -/
def memClear (m : List Host.Cell) (lo n : Nat) : List Host.Cell :=
  m.filter fun c => decide (c.1 < lo) || decide (lo + n ≤ c.1)

/-- The bytes the device lists in `[lo, lo + n)`, moved so that `lo` becomes 0. -/
def memSlice (m : List Host.Cell) (lo n : Nat) : List Host.Cell :=
  (m.filter fun c => decide (lo ≤ c.1) && decide (c.1 < lo + n)).map fun c => (c.1 - lo, c.2)

/-- The size of HBM: 11,718,750 frames of 64 KiB (R225). -/
def hbmFrames : Nat := 11718750
/-- Loft frames (R226). -/
def loftFrames : Nat := 32768
/-- A frame or tile (R225, R234). -/
def frameBytes : Nat := 65536
/-- Where the model numbers the loft's bytes. -/
def loftBase : Nat := 2 ^ 40
/-- Where the model numbers a core's scratchpad; cores 32-35 are the stewards (R426). -/
def scratchBase (core : Nat) : Nat :=
  if core < 32 then 2 ^ 41 + core * 2097152 else 2 ^ 42 + (core - 32) * 524288
/-- A scratch bank (R224). -/
def bankBytes : Nat := 131072
/-- The device address of byte `o` of a physical bank. -/
def bankAddr (core bank o : Nat) : Nat := scratchBase core + bank * bankBytes + o

/-- Whether an address names a byte of the device (R224, R426). -/
def isDeviceByte (a : Nat) : Bool :=
  decide (a < hbmFrames * frameBytes) || (decide (loftBase ≤ a) && decide (a < loftBase + loftFrames * frameBytes))
    || (decide (2 ^ 41 ≤ a) && decide (a < 2 ^ 41 + 32 * 2097152))
    || (decide (2 ^ 42 ≤ a) && decide (a < 2 ^ 42 + 4 * 524288))

/-- The device address of byte `o` of a frame (R225, R226, R237). -/
def frameAddr (loft : Bool) (frame o : Nat) : Nat :=
  (if loft then loftBase else 0) + frame * frameBytes + o

/-- The home slice of byte `o` of an HBM frame (R225). -/
def homeSlice (frame o : Nat) : Nat := (o / 256 + frame) % 256

/-- The vault of a loft address (R226). -/
def vaultOf (a : Nat) : Nat := (a - loftBase) / frameBytes / 1024

/-- Whether one of `n` bytes at an address holds an uncorrectable error (R384). -/
def badIn (d : Dev) (a n : Nat) : Bool := d.bad.any fun x => decide (a ≤ x) && decide (x < a + n)

/-- The level of an address in MEMX's TINFO (R374). -/
def memLevel (a : Nat) : Nat := if a < loftBase then 3 else if a < 2 ^ 41 then 2 else 1

/-- Take `n` free bytes (R241, R253, R326, R423): values nothing is known of, numbered by `Dev.free`. -/
def freeBytes (d : Dev) : Nat → List Byte × Dev
  | 0 => ([], d)
  | n + 1 =>
    let (bs, d') := freeBytes { d with free := d.free + 1 } n
    (Config.freeByte d.free :: bs, d')

end Sys2Proof.Machine
end

