-- ==== Sys2Proof/Machine/Query.lean ====
section
/-! DEFINITION. What the device knows of its runs: tasks, clocks and cells, the ridge, likelihood and
speculation (R170-R185). All of it is computed from the state. -/
namespace Sys2Proof.Machine

/-- The run an activation belongs to; a steward slot belongs to none (R395). -/
def runOfKey : ActKey → Option Nat
  | .ordinary r _ => some r
  | .handler r _ _ => some r
  | .steward _ _ => none

/-- The run and stamp a key's operations carry; a steward slot has neither (R171, R380). -/
def stampOfKey : ActKey → Option (Nat × Stamp)
  | .ordinary r st => some (r, st)
  | .handler r st _ => some (r, st)
  | .steward _ _ => none

/-- Whether the accesses of two keys stand in one program order: one activation, or a trapped activation and the handlers that
carry its stamp and share its SEQ (R171, R380). -/
def kin (j k : ActKey) : Bool := j = k || (stampOfKey j).isSome && stampOfKey j = stampOfKey k

/-- Whether an activation runs with service privilege (R426). -/
def isService (a : Act) : Bool :=
  match a.key with
  | .steward _ _ => true
  | _ => false

/-- Whether an activation is a handler activation (R380). -/
def isHandler (a : Act) : Bool :=
  match a.key with
  | .handler _ _ _ => true
  | _ => false

/-- All activations and steward slots. -/
def acts (s : State) : List Act := s.act :: s.dev.others

/-- The activation of a key. -/
def findAct (s : State) (k : ActKey) : Option Act := (acts s).find? (fun a => a.key = k)

/-- Replace the activation of the same key, in focus or not. -/
def putAct (s : State) (a : Act) : State :=
  if s.act.key = a.key then { s with act := a }
  else { s with dev := { s.dev with others := s.dev.others.map fun x => if x.key = a.key then a else x } }

/-- The run of a number. -/
def findRun (d : Dev) (n : Nat) : Option Run := d.runs.find? (fun r => r.num = n)

/-- Replace a run. -/
def putRun (d : Dev) (r : Run) : Dev :=
  { d with runs := d.runs.map fun x => if x.num = r.num then r else x }

/-- The run of an activation. -/
def actRun (s : State) (a : Act) : Option Run := (runOfKey a.key).bind (findRun s.dev)

/-- The entries of a list that are the first with their key. -/
def firstOf {α : Type} (key : α → Nat) (l : List α) : List α :=
  l.foldl (fun acc x => if acc.any fun y => key y = key x then acc else acc ++ [x]) []

/-- An image with the first declaration of each task, clock, cell and tensor alone, so that an instant has one initial activation for
each stamp (R170, R171, log 72). -/
def firstDeclared (img : Image) : Image :=
  { img with
    tasks := firstOf (·.num) img.tasks, clocks := firstOf (·.num) img.clocks
    conds := firstOf (·.num) img.conds, tensors := firstOf (·.handle) img.tensors }

/-- A task of an image. -/
def imgTask (img : Image) (t : Nat) : Option Task := img.tasks.find? (fun x => x.num = t)

/-- The bundle where a task starts: task 0 at the image's .entry, any other at its label (R9, R170). -/
def taskEntry (img : Image) (t : Nat) : Nat :=
  if t = 0 then img.entry else match imgTask img t with | some x => x.entry | none => 0

/-- A program clock of an image. -/
def imgClock (img : Image) (c : Nat) : Option PClock := img.clocks.find? (fun x => x.num = c)

/-- A condition cell of an image. -/
def imgCond (img : Image) (c : Nat) : Option Cond := img.conds.find? (fun x => x.num = c)

/-- The task that handles traps, where the image has one (R379). -/
def imgHandler (img : Image) : Option Task := img.tasks.find? (fun t => t.handler)

/-- The width of a task in a run: its override or its declaration (R170, R219). -/
def runWidth (r : Run) (t : Task) : Nat := sget t.width r.widths t.num

/-- The gated clocks from `c` up to pk0, pk0 left out, as (clock, cell) (R175). -/
def clockPath (img : Image) : Nat → Nat → List (Nat × Nat)
  | 0, _ => []
  | fuel + 1, c =>
    if c = 0 then []
    else match imgClock img c with
      | some k => (match k.cell with | some x => [(c, x)] | none => []) ++ clockPath img fuel k.parent
      | none => []

/-- The gated clocks of a task's program clock, from that clock up to pk0. -/
def taskPath (img : Image) (t : Nat) : List (Nat × Nat) :=
  match imgTask img t with
  | some k => clockPath img 64 k.clock
  | none => []

/-- A cell's value in an instant, `none` while unresolved (R176, R180). -/
def cellValue (r : Run) (c m : Nat) : Option Bool :=
  match r.values.find? (fun v => v.cell = c && v.inst = m) with
  | some v => some v.value
  | none =>
    if r.deadAfter.any (fun p => p.1 = c && p.2 < m) then some false
    else if m = 0 && (match imgCond r.image c with | some k => k.ahead | none => false) then some true
    else none

/-- Whether a task's program clock is known absent in an instant. -/
def taskAbsent (r : Run) (t m : Nat) : Bool :=
  (taskPath r.image t).any fun p => cellValue r p.2 m = some false

/-- The clocks a cell gates (R175): every clock whose .clock names it, though R187 speaks of one (log 72). -/
def cellClocks (img : Image) (c : Nat) : List Nat :=
  (img.clocks.filter fun k => k.num != 0 && k.cell = some c).map (·.num)

/-- Order on phases (R170). -/
def phaseLt (p q : Nat × Nat) : Bool := decide (p.1 < q.1) || (p.1 = q.1 && decide (p.2 < q.2))

/-- Order on stamps (R171). -/
def stampLt (p q : Stamp) : Bool :=
  decide (p.inst < q.inst) || (p.inst = q.inst && (decide (p.task < q.task)
    || (p.task = q.task && decide (p.index < q.index))))

/-- The phase of a stamp. -/
def phaseOf (t : Stamp) : Nat × Nat := (t.inst, t.task)

/-- The lesser of a phase and an optional one. -/
def minPhase (acc : Option (Nat × Nat)) (p : Nat × Nat) : Option (Nat × Nat) :=
  match acc with
  | none => some p
  | some q => if phaseLt p q then some p else some q

/-- The activations of a run. -/
def runActs (s : State) (run : Nat) : List Act := (acts s).filter fun a => runOfKey a.key = some run

/-- The phases of a run that have caused repair notices still on their way (R258). -/
def noticePhases (d : Dev) (run : Nat) : List (Nat × Nat) := (d.notices.filter fun x => x.run = run).map (·.cause)

/-- The phases of a run's traps that wait for a handler without a frozen activation (R381). -/
def orphanPhases (d : Dev) (run : Nat) : List (Nat × Nat) := (d.orphanTraps.filter fun x => x.run = run).map fun x => phaseOf x.stamp

/-- The ridge: the lowest phase that holds an activation that has not retired (R177), that has caused a repair notice not yet acted
on (R258), or for which a handler is still to start (R380, R381). -/
def ridge (s : State) (run : Nat) : Option (Nat × Nat) :=
  (((runActs s run).filter fun a => a.status != .retired).map (fun a => phaseOf a.stamp)
    ++ (noticePhases s.dev run ++ orphanPhases s.dev run)).foldl minPhase none

/-- The instant part of the ridge; with no activation left, the next instant to be admitted. -/
def ridgeInstant (s : State) (r : Run) : Nat :=
  match ridge s r.num with
  | some p => p.1
  | none => r.nextInstant

/-- `mul` of R182. -/
def mulL (x y : Nat) : Nat := if x = 0xFFFF then y else if y = 0xFFFF then x else x * y / 65536

/-- A probability widened to 16 bits (R182). -/
def widenP (p : BitVec 8) : Nat := p.toNat * 257

/-- A clock's likelihood register (R186). -/
def predictorOf (r : Run) (pk : Nat) : BitVec 8 := (r.predictors.toList.getD pk (0, false)).1

/-- The factors that one entry of an activation's list contributes in instant `m` (R183). -/
def factorTerms (r : Run) (m : Nat) : Factor → List Nat
  | .path t =>
    let path := taskPath r.image t
    let before := (r.instants.map (·.num)).filter fun n => decide (n < m)
    let ahead := path.filter fun p => match imgCond r.image p.2 with | some k => k.ahead | none => false
    (ahead.flatMap fun p => (before.filter fun n => cellValue r p.2 n = none).map fun _ => widenP (predictorOf r p.1))
      ++ ((path.reverse.filter fun p => cellValue r p.2 m = none).map fun p => widenP (predictorOf r p.1))
  | .spawn c inst p site =>
    if cellValue r c inst = none then
      [if p = 0 then widenP (r.sites.toList.getD site (0, false)).1 else widenP (BitVec.ofNat 8 p)]
    else []

/-- The cumulative likelihood L (R184). -/
def likelihood (r : Run) (a : Act) : Nat :=
  (a.factors.flatMap (factorTerms r a.stamp.inst)).foldl mulL 0xFFFF

/-- L of an activation; 0xFFFF outside runs. -/
def actLike (s : State) (a : Act) : Nat :=
  match actRun s a with
  | some r => likelihood r a
  | none => 0xFFFF

/-- Whether the activation's phase is the ridge (R178). -/
def atRidge (s : State) (a : Act) : Bool :=
  match runOfKey a.key with
  | some n => ridge s n = some (phaseOf a.stamp)
  | none => true

/-- Whether an activation is speculative: above the ridge, or L below 0xFFFF (R178); a handler activation is
not (R380), nor a steward slot. -/
def speculative (s : State) (a : Act) : Bool :=
  match a.key with
  | .ordinary n _ =>
    (match ridge s n with | some p => phaseLt p (phaseOf a.stamp) | none => false) || decide (actLike s a < 0xFFFF)
  | _ => false

/-- The queue priority of an activation's run (R217). -/
def runPriority (s : State) (a : Act) : Nat :=
  match actRun s a with
  | some r => match s.dev.queues.find? (fun q => q.index = r.queue) with | some q => q.priority | none => 0
  | none => 0

/-- The die of a core. -/
def dieOf (core : Nat) : Nat := core / 8

/-- A compute core. -/
def getCore (d : Dev) (c : Nat) : Core := if h : c < 32 then d.cores[c] else Core.reset

/-- Replace a compute core. -/
def putCore (d : Dev) (c : Nat) (x : Core) : Dev :=
  if h : c < 32 then { d with cores := d.cores.set c x h } else d

/-- The code section of the activation's image, or for a steward slot the running firmware, or the program of minimal mode (R21,
R426, R431). -/
def codeOf (s : State) (a : Act) : List Byte :=
  match actRun s a with
  | some r => r.image.code
  | none => match s.dev.running with
    | some f => f.code
    | none => if s.dev.boot = .minimal then Config.minimalCode else []

/-- Whether a device may run anything but the host's start-up requests (R431). -/
def booted (d : Dev) : Bool := d.boot = .running

end Sys2Proof.Machine
end

