-- ==== Sys2Proof/Machine/Cells.lean ====
section
/-! DEFINITION. Order-repairing cells (R246-R264): the value of an ORDERED word as of a phase, the loads and
atomics that read it, the arrival of entries, repair notices and folding. -/
namespace Sys2Proof.Machine

/-- The operation code of an ATOM (R64, R251). -/
def atomCode : AtomOp → Nat
  | .add => 0 | .min => 1 | .max => 2 | .minn => 3 | .maxn => 4 | .and => 5 | .or => 6 | .xor => 7 | .xadd32 => 8
  | .fetchadd => 0 | .swap => 1 | .cas _ => 2 | .fetchmin => 3 | .fetchmax => 4

/-- The effect of an ATOM or ATOMR on a memory value of width `w` bits (R287, R290). -/
def atomApply (op : AtomOp) (w m o : Nat) : Nat :=
  let m := m % 2 ^ w
  let o := o % 2 ^ w
  match op with
  | .add | .fetchadd => (m + o) % 2 ^ w
  | .min | .fetchmin => if sextInt w m ≤ sextInt w o then m else o
  | .max | .fetchmax => if sextInt w m ≤ sextInt w o then o else m
  | .minn => if m ≤ o then m else o
  | .maxn => if m ≤ o then o else m
  | .and => Nat.land m o
  | .or => Nat.lor m o
  | .xor => Nat.xor m o
  | .swap => o
  | .cas c => if m = c % 2 ^ w then o else m
  | .xadd32 => m

/-- Replace `w` bits of a word at byte offset `o`. -/
def putBits (word w o x : Nat) : Nat :=
  let lo := 8 * o
  word % 2 ^ lo + 2 ^ lo * (x % 2 ^ w) + 2 ^ (lo + w) * (word / 2 ^ (lo + w))

/-- An ATOM or ATOMR of `w` bits at byte offset `o` of an 8-byte word. -/
def atomWord (op : AtomOp) (w o word operand : Nat) : Nat :=
  putBits word w o (atomApply op w (word / 2 ^ (8 * o)) operand)

/-- Add one f32 term to the 32 bytes of an x128 container, on the grid `e` (R91, R288). -/
def xadd32Container (c : Nat) (e : Int) (term : Nat) : Nat :=
  let x := x128OfNat c
  rawOf (addTerm 125 e x.sum (some (decodeF fmtF32 term))) + 2 ^ 128 * (c / 2 ^ 128)

/-- The key that orders stores of one phase (R248, R283). -/
def histLt (a b : Hist) : Bool :=
  decide (a.stamp.index < b.stamp.index) || (a.stamp.index = b.stamp.index &&
    (decide (a.seq < b.seq) || (a.seq = b.seq && decide (a.lane < b.lane))))

/-- Whether a store entry writes byte `b`. -/
def writesByte (b : Nat) (h : Hist) : Bool :=
  match h.op with
  | .store m => m.getLsbD b
  | _ => false

/-- The store that supplies byte `b` of a phase's store entry (R248). -/
def supplier (b : Nat) (l : List Hist) : Option Hist :=
  l.foldl (fun acc h =>
    if writesByte b h then (match acc with | none => some h | some g => if histLt g h then some h else some g)
    else acc) none

/-- Byte `b` of an 8-byte value. -/
def byteAt (x b : Nat) : Nat := x / 2 ^ (8 * b) % 256

/-- The word after the store entry of `l` (R251, step 1). -/
def applyStores (l : List Hist) (word : Nat) : Nat :=
  [0, 1, 2, 3, 4, 5, 6, 7].foldl (fun w b =>
    match supplier b l with | some h => putBits w 8 b (byteAt h.val b) | none => w) word

/-- Insert into a list sorted by `histLt`. -/
def insertHist (h : Hist) : List Hist → List Hist
  | [] => [h]
  | g :: rest => if histLt h g then h :: g :: rest else g :: insertHist h rest

/-- Sort by stamp, SEQ and lane. -/
def sortHist (l : List Hist) : List Hist := l.foldl (fun acc h => insertHist h acc) []

/-- The ATOMR entries in ascending full stamp (R251, step 2). -/
def applyAtomrs (l : List Hist) (word : Nat) : Nat :=
  (sortHist l).foldl (fun w h => match h.op with | .atomr op n o => atomWord op n o w h.val | _ => w) word

/-- The ATOM entries of one operation code and width. -/
def applyAtomKind (code width : Nat) (l : List Hist) (word : Nat) : Nat :=
  l.foldl (fun w h => match h.op with
    | .atom op n o => if atomCode op = code && n = width then atomWord op n o w h.val else w
    | _ => w) word

/-- The ATOM entries but XADD32, by operation code and 32 bits before 64 (R251, step 3). -/
def applyAtoms (l : List Hist) (word : Nat) : Nat :=
  [0, 1, 2, 3, 4, 5, 6, 7].foldl (fun w c => applyAtomKind c 64 l (applyAtomKind c 32 l w)) word

/-- The effect of one phase on one word, XADD32 left out (R251). -/
def applyPhaseWord (l : List Hist) (word : Nat) : Nat := applyAtoms l (applyAtomrs l (applyStores l word))

/-- The entries of one phase. -/
def ofPhase (p : Nat × Nat) (l : List Hist) : List Hist := l.filter fun h => phaseOf h.stamp = p

/-- The effect of one phase on the four words of a 32-byte container (R251, R288). -/
def applyPhase (p : Nat × Nat) (hists : Nat → List Hist) (words : Nat → Nat) : Nat → Nat :=
  let after := fun i => applyPhaseWord (ofPhase p (hists i)) (words i)
  let terms := (ofPhase p (hists 0)).filter fun h => match h.op with | .atom .xadd32 _ _ => true | _ => false
  if terms.isEmpty then after
  else
    let e := sextInt 32 (words 2)
    let c := terms.foldl (fun c h => xadd32Container c e h.val)
      (after 0 + 2 ^ 64 * after 1 + 2 ^ 128 * after 2 + 2 ^ 192 * after 3)
    fun i => c / 2 ^ (64 * i) % 2 ^ 64

/-- The cell of a word. -/
def findCell (d : Dev) (word : Nat) : Option Cell := d.cells.find? fun c => c.word = word

/-- The history of a word. -/
def histOf (d : Dev) (word : Nat) : List Hist := match findCell d word with | some c => c.hist | none => []

/-- The first byte of the 32-byte container that holds a word. -/
def containerOf (word : Nat) : Nat := word / 32 * 32

/-- Distinct phases of a list of entries, ascending. -/
def insertPhase (p : Nat × Nat) : List (Nat × Nat) → List (Nat × Nat)
  | [] => [p]
  | q :: rest => if p = q then q :: rest else if phaseLt p q then p :: q :: rest else q :: insertPhase p rest

/-- The phases below `p` that have entries in a container. -/
def phasesBelow (p : Nat × Nat) (l : List Hist) : List (Nat × Nat) :=
  (l.filter fun h => phaseLt (phaseOf h.stamp) p).foldl (fun acc h => insertPhase (phaseOf h.stamp) acc) []

/-- The words of a container as of the phases below `p`. -/
def containerBefore (d : Dev) (word : Nat) (p : Nat × Nat) : Nat → Nat :=
  let base := containerOf word
  let hists := fun i => histOf d (base + 8 * i)
  let all := hists 0 ++ hists 1 ++ hists 2 ++ hists 3
  (phasesBelow p all).foldl (fun w q => applyPhase q hists w) (fun i => memReadNat d.mem (base + 8 * i) 8)

/-- `prior` of R252: the value of a word as of the phases before `p`. -/
def prior (d : Dev) (word : Nat) (p : Nat × Nat) : Nat :=
  containerBefore d word p ((word - containerOf word) / 8)

/-- The entries with an activation's stamp still on their way to a word: it sees them as its own stores (R267, R380). -/
def ownQueued (d : Dev) (word : Nat) (k : ActKey) : List Hist :=
  (d.cellq.filter fun q => q.word = word && kin q.who k).map (·.entry)

/-- The bytes of an engine command that its activation sees at an operation with this SEQ: those that a WAIT before it found to be
covered (R271). -/
def seenAt (u : EngineUse) (seq : Nat) : Nat := (u.seen.filter fun x => decide (x.1 ≤ seq)).foldl (fun n x => max n x.2) 0

/-- Whether an entry is the write of an engine command of the activation `x` (its run and stamp), and no WAIT of it before the
operation with this SEQ has found the generation that covers the element (R271). -/
def unseenEngine (d : Dev) (x : Option (Nat × Stamp)) (seq : Nat) (h : Hist) : Bool :=
  d.engineUses.any fun u => x = some (u.run, u.stamp) && u.stamp = h.stamp && u.seq = h.seq
    && decide (seenAt u seq < (h.lane + 1) * u.size)

/-- The bytes a load with stamp `st` finds in a word (R252): `none` where two siblings wrote the byte and this
one is among them (R253); of its engines' writes those that a WAIT has made visible (R271). -/
def orderedBytes (d : Dev) (word : Nat) (k : ActKey) (st : Stamp) : List (Option Byte) :=
  let v := prior d word (phaseOf st)
  let l := (ofPhase (phaseOf st) (histOf d word ++ ownQueued d word k)).filter fun h => !unseenEngine d (stampOfKey k) (2 ^ 32) h
  [0, 1, 2, 3, 4, 5, 6, 7].map fun b =>
    let ws := l.filter (writesByte b)
    if ws.any (fun h => h.stamp.index = st.index) then
      if ws.any (fun h => h.stamp.index != st.index) then none
      else match supplier b l with
        | some h => some (BitVec.ofNat 8 (byteAt h.val b))
        | none => some (BitVec.ofNat 8 (byteAt v b))
    else some (BitVec.ofNat 8 (byteAt v b))

/-- The value an ORDERED ATOMR with this stamp and SEQ returns and applies itself to (R256); of its activation's engine writes it
sees those that a WAIT before it has made visible (R271). -/
def atomrValue (d : Dev) (word : Nat) (st : Stamp) (seq : Nat) : Nat :=
  let me : Hist := { stamp := st, seq := seq, lane := 0, op := .store 0, val := 0 }
  let own := (findCell d word).map fun c => (c.run, st)
  let below := (ofPhase (phaseOf st) (histOf d word)).filter fun h => histLt h me && !unseenEngine d own seq h
  applyAtomrs below (applyStores below (prior d word (phaseOf st)))

/-! ### Counting and changing cells -/

/-- The entries of one phase as R263 counts them. -/
def phaseEntries (l : List Hist) : Nat :=
  let store := if l.any (fun h => match h.op with | .store _ => true | _ => false) then 1 else 0
  let kind := fun (c w : Nat) => if l.any (fun h => match h.op with
    | .atom op n _ => atomCode op = c && n = w | _ => false) then 1 else 0
  let atoms := ([0, 1, 2, 3, 4, 5, 6, 7].map fun c => kind c 32 + kind c 64).foldl (· + ·) 0
  store + atoms + 2 * kind 8 256
    + (l.filter fun h => match h.op with | .atomr _ _ _ => true | _ => false).length

/-- All history entries of a cell as R263 counts them. -/
def cellEntries (l : List Hist) : Nat :=
  ((l.foldl (fun acc h => insertPhase (phaseOf h.stamp) acc) []).map fun p => phaseEntries (ofPhase p l)).foldl (· + ·) 0

/-- Replace a cell; one left with no entry and no record returns to the pool (R247). -/
def putCell (d : Dev) (c : Cell) : Dev :=
  if c.hist.isEmpty && c.readers.isEmpty then { d with cells := d.cells.filter fun x => x.word != c.word }
  else if d.cells.any (fun x => x.word = c.word) then
    { d with cells := d.cells.map fun x => if x.word = c.word then c else x }
  else { d with cells := d.cells ++ [c] }

/-- The words without a cell for which a request on its way has one reserved (R263). -/
def reservedWords (d : Dev) : List Nat :=
  ((d.cellq.filter fun q => q.reserved && (findCell d q.word).isNone).map (·.word)).eraseDups

/-- Whether the pool of the word's vault has a free cell, or the word has one already, its own or reserved (R246, R247). -/
def cellAvailable (d : Dev) (word : Nat) : Bool :=
  (findCell d word).isSome || (reservedWords d).contains word
    || decide ((d.cells.filter fun c => vaultOf c.word = vaultOf word).length
      + ((reservedWords d).filter fun w => vaultOf w = vaultOf word).length < 32768)

/-- The cell of a word, a fresh one where it has none. -/
def cellOrNew (d : Dev) (word run : Nat) : Cell :=
  (findCell d word).getD { word := word, run := run, hist := [], readers := [] }

/-- Whether a reader record is there or can be made (R254, R255). -/
def readerRoom (d : Dev) (word : Nat) (st : Stamp) (inc : BitVec 16) : Bool :=
  cellAvailable d word &&
    (match findCell d word with
      | some c => c.readers.any (fun r => r.stamp = st && r.inc = inc) || decide (c.readers.length < 4)
      | none => true)

/-- Record a tentative load (R254). -/
def addReader (d : Dev) (word run : Nat) (st : Stamp) (inc : BitVec 16) : Dev :=
  let c := cellOrNew d word run
  if c.readers.any (fun r => r.stamp = st && r.inc = inc) then d
  else putCell d { c with readers := c.readers ++
    [{ stamp := st, inc := inc, prior := BitVec.ofNat 64 (prior d word (phaseOf st)) }] }

/-- Re-evaluate the reader records of one word above phase `p` and send notices to those whose prior changed
(R260). -/
def reevalWord (p : Nat × Nat) (d : Dev) (word : Nat) : Dev :=
  match findCell d word with
  | none => d
  | some c =>
    let fresh := c.readers.map fun r =>
      if phaseLt p (phaseOf r.stamp) then { r with prior := BitVec.ofNat 64 (prior d word (phaseOf r.stamp)) } else r
    let hit := (c.readers.zip fresh).filter fun x => x.1.prior != x.2.prior
    { putCell d { c with readers := fresh } with
      notices := d.notices ++ hit.map fun x => { run := c.run, stamp := x.1.stamp, inc := x.1.inc, cause := p } }

/-- Re-evaluate a container: an XADD32 entry of its first word bears on the second (R249). -/
def reeval (p : Nat × Nat) (d : Dev) (word : Nat) : Dev :=
  let b := containerOf word
  [b, b + 8, b + 16, b + 24].foldl (reevalWord p) d

/-- Put an entry into its cell (R247-R250) and repair readers (R260). -/
def acceptEntry (d : Dev) (q : CellReq) : Dev :=
  let c := cellOrNew d q.word q.run
  reeval (phaseOf q.entry.stamp) (putCell d { c with hist := c.hist ++ [q.entry] }) q.word

/-- Cancel the entries of an activation in one cell and release its reader records (R262). -/
def cancelInCell (run : Nat) (st : Stamp) (d : Dev) (word : Nat) : Dev :=
  match findCell d word with
  | none => d
  | some c =>
    if c.run != run then d
    else
      let hist := c.hist.filter fun h => h.stamp != st
      let readers := c.readers.filter fun r => r.stamp != st
      reeval (phaseOf st) (putCell d { c with hist := hist, readers := readers }) word

/-- Cancel every entry and record of an activation, those on their way included (R188, R262). -/
def cancelEntries (d : Dev) (run : Nat) (st : Stamp) : Dev :=
  let d1 := { d with cellq := d.cellq.filter fun q => !(q.run = run && q.entry.stamp = st) }
  (d1.cells.map (·.word)).foldl (cancelInCell run st) d1

/-- Fold one phase of a container into the base values (R259). -/
def foldPhase (d : Dev) (word : Nat) (p : Nat × Nat) : Dev :=
  let base := containerOf word
  let hists := fun i => histOf d (base + 8 * i)
  let ws := applyPhase p hists (fun i => memReadNat d.mem (base + 8 * i) 8)
  let mem := [0, 1, 2, 3].foldl (fun m i => memWriteBytes m (base + 8 * i) (bytesOfNat 8 (ws i))) d.mem
  [base, base + 8, base + 16, base + 24].foldl (fun d w =>
    match findCell d w with
    | some c => putCell d { c with hist := c.hist.filter fun h => phaseOf h.stamp != p }
    | none => d) { d with mem := mem }

/-- Fold a container's phases below the ridge and drop the records the ridge has passed (R259). -/
def foldCell (d : Dev) (word : Nat) (rdg : Nat × Nat) : Dev :=
  let base := containerOf word
  let all := histOf d base ++ histOf d (base + 8) ++ histOf d (base + 16) ++ histOf d (base + 24)
  let d1 := (phasesBelow rdg all).foldl (fun d p => foldPhase d word p) d
  match findCell d1 word with
  | some c => putCell d1 { c with readers := c.readers.filter fun r => !phaseLt (phaseOf r.stamp) rdg }
  | none => d1

end Sys2Proof.Machine
end

