-- ==== Sys2Proof/Machine/Lifecycle.lean ====
section
/-! DEFINITION. The life of activations and runs: resources and slots, weight, killing, pruning and squashing,
condition cells, frames, handles, tear-down (R176-R200, R207-R210, R222, R227-R231, R262, R383). -/
namespace Sys2Proof.Machine

/-! ### Handles (R383) -/

/-- A handle's value. -/
def mkHandle (run : Nat) (gen : BitVec 16) (entry : Nat) : Word :=
  BitVec.ofNat 64 (run * 2 ^ 26 + gen.toNat * 2 ^ 10 + entry)

/-- The entry a handle names, when its run, generation and entry are current and bits [63:36] are zero. -/
def handleTarget (s : State) (h : Word) : Option (Nat × Nat × ActKey) :=
  let n := h.toNat
  if n ≥ 2 ^ 36 || n % 1024 = 0 then none
  else
    match findRun s.dev (n / 2 ^ 26) with
    | none => none
    | some r =>
      match r.handles.find? fun e => e.entry = n % 1024 && e.gen.toNat = n / 1024 % 65536 with
      | some e => e.who.map fun k => (r.num, e.entry, k)
      | none => none

/-- The lowest free entry from `i` upward, of `fuel` entries. -/
def freeEntry (hs : List HandleEntry) : Nat → Nat → Option Nat
  | 0, _ => none
  | fuel + 1, i =>
    if hs.any (fun e => e.entry = i && e.who.isSome) then freeEntry hs fuel (i + 1) else some i

/-- Take the lowest free entry of a run's table for an activation; `none` when all 1,023 are taken. -/
def takeHandle (r : Run) (k : ActKey) : Option (Run × Word) :=
  match freeEntry r.handles 1023 1 with
  | none => none
  | some i =>
    let gen := match r.handles.find? fun e => e.entry = i with | some e => e.gen | none => 0
    some ({ r with handles := (r.handles.filter fun e => e.entry != i) ++ [{ entry := i, gen := gen, who := some k }] },
      mkHandle r.num gen i)

/-- Free the entries that name an activation; their generations rise by 1. -/
def freeHandles (r : Run) (k : ActKey) : Run :=
  { r with handles := r.handles.map fun e => if e.who = some k then { e with who := none, gen := e.gen + 1 } else e }

/-! ### Slots and the resources of a core -/

/-- The tiles of an activation's task, in ascending number (R339, R392). -/
def ownedTiles (s : State) (a : Act) : List AReg :=
  match actRun s a with
  | some r => match imgTask r.image a.task with | some t => (List.finRange 16).filter t.tiles.contains | none => []
  | none => []

/-- Whether an activation's task declares the array (R339). -/
def ownsArray (s : State) (a : Act) : Bool :=
  match actRun s a with
  | some r => match imgTask r.image a.task with | some t => t.array | none => false
  | none => false

/-- The feed units of an activation's task (R312). -/
def feedCount (s : State) (a : Act) : Nat :=
  match actRun s a with
  | some r => match imgTask r.image a.task with | some t => t.feeds | none => 0
  | none => 0

/-- The number of scratch banks a task's plan names (R227). -/
def taskBanks (img : Image) (t : Nat) : Nat :=
  (img.scratch.filter fun b => b.task = none || b.task = some t).foldl (fun n b => max n (b.bank + 1)) 0

/-- Give banks back: each is free 512 cycles later (R228). -/
def releaseBanks (doneAt : Nat) (banks : Vector BankState 16) (l : List Nat) : Vector BankState 16 :=
  l.foldl (fun v b => if h : b < 16 then v.set b (.clearing doneAt) h else v) banks

/-- Drop an activation's array commands and the busy holds of its tiles (R355, R363). -/
def dropArray (c : Core) (k : ActKey) (tiles : List AReg) : Core :=
  { c with
    mulq := c.mulq.filter fun m => m.owner != k
    wq := c.wq.filter fun m => m.owner != k
    tiles := tiles.foldl (fun (v : Vector Tile 16) (t : AReg) => v.set t.val { v[t.val] with busy := [] }) c.tiles }

/-- Whether an activation is in a slot of a core. -/
def onCore (core : Nat) (a : Act) : Bool :=
  match a.place with | some p => p.core = core | none => false

/-- REQ of the stewards that asked for this slot reads 0 again: the request landed or was dropped (R404, R405). -/
def clearRequest (s : State) (core slot : Nat) : State :=
  let f := fun (a : Act) =>
    if a.preemptCsr.toNat = 65536 + core * 256 + slot then
      { a with preemptCsr := BitVec.ofNat 64 (core * 256 + slot) } else a
  { s with act := f s.act, dev := { s.dev with others := s.dev.others.map f } }

/-- Free the slot of an activation with its banks, tiles, array commands and running mark (R188, R228, R262). -/
def leaveSlot (s : State) (a : Act) : State :=
  match a.place with
  | none => s
  | some p =>
    if p.core < 32 then
      let c := dropArray (getCore s.dev p.core) a.key (ownedTiles s a)
      let c := { c with
        banks := releaseBanks (s.dev.cycle + 512) c.banks p.banks
        current := if c.current = some p.slot then none else c.current
        emptySince := s.dev.cycle }
      clearRequest (putAct { s with dev := putCore s.dev p.core c } { a with place := none, preempt := false })
        p.core p.slot
    else s

/-- Put another activation in focus: the first of the others. -/
def refocus (s : State) : State :=
  match s.dev.others with
  | [] => s
  | a :: rest => { s with act := a, dev := { s.dev with others := rest } }

/-- Remove an activation altogether. -/
def removeAct (s : State) (k : ActKey) : State :=
  if s.act.key = k then refocus s
  else { s with dev := { s.dev with others := s.dev.others.filter fun a => a.key != k } }

/-- Put the activation of a key in focus. -/
def focusOn (s : State) (k : ActKey) : State :=
  if s.act.key = k then s
  else match s.dev.others.find? (fun a => a.key = k) with
    | some a => { s with act := a, dev := { s.dev with others := s.act :: s.dev.others.filter fun x => x.key != k } }
    | none => s

/-- Stop an activation's engine commands, collectives and live writes still on their way (R188, R222, R262); the queue agent's
status of a LAUNCH that it has decided is still written (R221, R222). -/
def dropCommands (d : Dev) (k : ActKey) : Dev :=
  { d with
    copies := d.copies.map fun q => q.filter fun c => c.who != k
    colls := d.colls.filter fun c => c.who != k
    liveq := d.liveq.filter fun q => q.who != k || q.unit = .agent
    engineUses := d.engineUses.filter fun u => stampOfKey k != some (u.run, u.stamp) }

/-! ### Termination weight (R197-R200) -/

/-- The whole weight of an instant. -/
def rootWeight : Nat := 2 ^ 63

/-- Add to the weight returned to an instant. -/
def returnWeight (d : Dev) (run inst : Nat) (w : Int) : Dev :=
  { d with runs := d.runs.map fun r =>
    if r.num = run then
      { r with instants := r.instants.map fun i =>
        if i.num = inst then { i with returned := ((i.returned : Int) + w).toNat } else i }
    else r }

/-! ### Descendants, killing, pruning, squashing -/

/-- Whether `a` is a child of one of the stamps. -/
def childOf (l : List Stamp) (a : Act) : Bool :=
  match a.parent with | some p => l.contains p | none => false

/-- The descendants through SPAWN of the stamps `l` in a run, by rising generations (tasks rise, R206). -/
def descendants (s : State) (run : Nat) : Nat → List Stamp → List Act
  | 0, _ => []
  | fuel + 1, l =>
    let kids := (runActs s run).filter fun a => !isHandler a && childOf l a
    if kids.isEmpty then [] else kids ++ descendants s run fuel (kids.map (·.stamp))

/-- Withdraw the SPAWNC uses of an activation that is squashed or taken away (R188, R208, R262). -/
def withdrawUses (r : Run) (st : Stamp) : Run := { r with uses := r.uses.filter fun u => u.spawner != st }

/-- Take an activation away with its entries, commands, slot and handle (R188, R222). -/
def dropAct (s : State) (a : Act) : State :=
  match runOfKey a.key with
  | none => s
  | some n =>
    let s := leaveSlot s a
    let d := dropCommands (if isHandler a then s.dev else cancelEntries s.dev n a.stamp) a.key
    let d := match findRun d n with
      | some r => putRun d (if isHandler a then freeHandles r a.key else withdrawUses (freeHandles r a.key) a.stamp)
      | none => d
    let d := { d with
      notices := if isHandler a then d.notices else d.notices.filter fun x => !(x.run = n && x.stamp = a.stamp) }
    removeAct { s with dev := d } a.key

/-- Prune or kill one activation: dropped, its weight returned (R188, R200). -/
def pruneOne (s : State) (a : Act) : State :=
  match runOfKey a.key with
  | none => s
  | some n =>
    let s1 := dropAct s a
    if isHandler a then s1 else { s1 with dev := returnWeight s1.dev n a.stamp.inst a.weight.toNat }

/-- The handler activations that serve an activation. -/
def handlersOf (s : State) (a : Act) : List Act :=
  (acts s).filter fun h => isHandler h && h.serves = a.handle && a.handle != 0

/-- Prune an activation and its descendants (R188). -/
def prune (s : State) (a : Act) : State :=
  match runOfKey a.key with
  | none => s
  | some n => (a :: descendants s n 256 [a.stamp]).foldl (fun s x =>
      match findAct s x.key with | some y => pruneOne ((handlersOf s y).foldl dropAct s) y | none => s) s

/-- Squash an activation: it returns to pending under a raised incarnation, its descendants are removed, its
weight is restored (R199, R262). -/
def squash (s : State) (a : Act) : State :=
  match runOfKey a.key with
  | none => s
  | some n =>
    let kids := descendants s n 256 [a.stamp]
    let known := (a :: kids).foldl (fun w x => w + x.weight.toNat) 0
    let s1 := kids.foldl (fun s x => match findAct s x.key with | some y => dropAct s y | none => s) s
    let s2 := leaveSlot s1 a
    let d := dropCommands (cancelEntries s2.dev n a.stamp) a.key
    let d := match findRun d n with | some r => putRun d (withdrawUses (freeHandles r a.key) a.stamp) | none => d
    let d := returnWeight d n a.stamp.inst ((known : Int) - a.weight0.toNat)
    let fresh := { Act.fresh a.key a.stamp a.task a.arg a.weight0 with
      incarnation := a.incarnation + 1, factors := a.factors, parent := a.parent
      onlyAtRidge := a.onlyAtRidge, waitSince := d.cycle, pc := 0 }
    putAct { s2 with dev := d } fresh

/-! ### Condition cells (R176, R180, R185-R188, R207-R210) -/

/-- One update of a predictor (R187). -/
def trainP (outcome : Bool) (x : BitVec 8 × Bool) : BitVec 8 × Bool :=
  if x.2 then x
  else
    let p := x.1.toNat
    if outcome then (BitVec.ofNat 8 (p + (255 - p) / 8), x.2) else (BitVec.ofNat 8 (p - p / 8), x.2)

/-- Update one entry of a predictor vector. -/
def trainAt (outcome : Bool) (v : Vector (BitVec 8 × Bool) 64) (i : Nat) : Vector (BitVec 8 × Bool) 64 :=
  if h : i < 64 then v.set i (trainP outcome v[i]) h else v

/-- Whether a task's program clock is one of `ks` or a descendant of one (R175). -/
def taskUnder (img : Image) (t : Nat) (ks : List Nat) : Bool :=
  (taskPath img t).any fun p => ks.contains p.1

/-- The ahead cells on clocks that are, or descend from, one of `ks` (R180). -/
def aheadUnder (img : Image) (ks : List Nat) : List Nat :=
  (img.conds.filter fun c => c.ahead &&
    (cellClocks img c.num).any fun k => (clockPath img 64 k).any fun p => ks.contains p.1).map (·.num)

/-- Whether an activation was created by a SPAWNC whose cell is false for its instant (R188, R207). -/
def spawnedFalse (r : Run) (a : Act) : Bool :=
  match a.factors.getLast? with
  | some (.spawn x i _ _) => cellValue r x i = some false
  | _ => false

/-- The initial activations of the run whose task's clock is known absent in their instant. -/
def absentInitials (s : State) (r : Run) : List Act :=
  (runActs s r.num).filter fun a => !isHandler a && a.parent = none && a.status != .retired
    && taskAbsent r a.stamp.task a.stamp.inst

/-- Prune every activation of a list that still exists. -/
def pruneAll (s : State) (l : List Act) : State :=
  l.foldl (fun s a => match findAct s a.key with | some x => prune s x | none => s) s

/-- A run that is about to resolve a cell keeps what its likelihoods rested on before this core cycle (R185). -/
def keepLike (cycle : Nat) (r : Run) : Option LikeInputs :=
  let now : LikeInputs :=
    { cycle := cycle, values := r.values, deadAfter := r.deadAfter, predictors := r.predictors, sites := r.sites }
  match r.likeWas with
  | some w => if w.cycle = cycle then some w else some now
  | none => some now

/-- A cell takes its value for an instant: predictors learn, and a false value prunes (R187, R188, R208). An
ahead cell whose clock is thereby absent is false for every later instant, without learning (R180), and prunes there too. -/
def resolveCell (s : State) (run c m : Nat) (value : Bool) : State :=
  match findRun s.dev run with
  | none => s
  | some r =>
    let ks := cellClocks r.image c
    let used := (r.uses.filter fun u => u.cell = c && u.inst = m).filterMap (·.site)
    let r1 := { r with
      values := r.values ++ [{ cell := c, inst := m, value := value }]
      predictors := ks.foldl (trainAt value) r.predictors
      sites := used.eraseDups.foldl (trainAt value) r.sites
      uses := r.uses.filter fun u => !(u.cell = c && u.inst = m)
      likeWas := keepLike s.dev.cycle r
      deadAfter := if value then r.deadAfter
        else r.deadAfter ++ ((aheadUnder r.image ks).map fun x => (x, m)) }
    let s1 := { s with dev := putRun s.dev r1 }
    if value then s1
    else pruneAll s1 (((runActs s1 run).filter (spawnedFalse r1)) ++ absentInitials s1 r1)

/-- The gate phase of a cell in an instant (R176, R208). -/
def gatePhase (r : Run) (c m : Nat) : Option (Nat × Nat) :=
  let own := (r.image.tasks.filter fun t => taskUnder r.image t.num (cellClocks r.image c)).map fun t => (m, t.num)
  let spawned := (r.uses.filter fun u => u.cell = c && u.inst = m).map fun u => (m, u.task)
  (own ++ spawned).foldl minPhase none

/-- The first unresolved cell of an admitted instant whose gate phase the ridge has reached. -/
def dueDefault (s : State) (r : Run) : Option (Nat × Nat) :=
  match ridge s r.num with
  | none => none
  | some rd =>
    (r.instants.flatMap fun i => r.image.conds.map fun c => (c.num, i.num)).find? fun p =>
      cellValue r p.1 p.2 = none && (match gatePhase r p.1 p.2 with | some g => !phaseLt rd g | none => false)

/-- The default of R176, applied until no cell is due: after anything that may move the ridge. -/
def settleCells : Nat → State → Nat → State
  | 0, s, _ => s
  | fuel + 1, s, run =>
    match findRun s.dev run with
    | none => s
    | some r =>
      match dueDefault s r with
      | some p => settleCells fuel (resolveCell s run p.1 p.2 false) run
      | none => s

/-- Forget the STAGED accesses of phases the ridge has left (R241 binds siblings only). -/
def trimStaged (s : State) (run : Nat) : State :=
  match ridge s run with
  | some p => { s with dev := { s.dev with staged := s.dev.staged.filter fun x =>
      !(x.run = run && phaseLt (phaseOf x.stamp) p) } }
  | none => { s with dev := { s.dev with staged := s.dev.staged.filter fun x => x.run != run } }

/-- What follows any change of a run's activations: cells by default (R176), old access records dropped. -/
def afterChange (s : State) (run : Nat) : State := trimStaged (settleCells 65536 s run) run

/-! ### Frames and tables (R225, R226, R231, R236, R431, R432) -/

/-- `n` frames from `i` upward that are not in `used`, of `fuel` candidates. -/
def pickFrames (used : List Nat) : Nat → Nat → Nat → List Nat
  | 0, _, _ => []
  | _, 0, _ => []
  | fuel + 1, n + 1, i =>
    if used.contains i then pickFrames used fuel (n + 1) (i + 1) else i :: pickFrames used fuel n (i + 1)

/-- The runs that hold frames, a number and a key slot: those that exist, and those torn down and not reclaimed (R222, R432). -/
def holders (d : Dev) : List Run := d.runs ++ d.torn.map (·.run)
/-- HBM frames in use. -/
def hbmUsed (d : Dev) : List Nat := (holders d).flatMap (·.hbmFrames)
/-- Loft frames in use. -/
def loftUsed (d : Dev) : List Nat := (holders d).flatMap (·.loftFrames)

/-- The cores no longer hold anything of `[lo, lo + n)` (R231, R244). -/
def dropRange (d : Dev) (lo n : Nat) : Dev :=
  let out := fun (x : Nat) => decide (x < lo) || decide (lo + n ≤ x)
  { d with cores := mapVec (fun c => { c with
      l1 := c.l1.filter fun p => out p.1, l1Staged := c.l1Staged.filter fun p => out p.1, l1Pref := c.l1Pref.filter out }) d.cores }

/-- One free frame for a tensor of a run, cleared before it is allotted (R231, R432): an HBM frame or one of the
tensor's vault. -/
def allotFrame (d : Dev) (run : Nat) (vault : Option Nat) : Option (Nat × Dev) :=
  match vault with
  | none =>
    match pickFrames (hbmUsed d) (min hbmFrames ((hbmUsed d).length + 1)) 1 0 with
    | f :: _ =>
      let d1 := { d with
        mem := memClear d.mem (frameAddr false f 0) frameBytes
        usedFrames := d.usedFrames.filter fun x => x != f }
      let d1 := dropRange d1 (frameAddr false f 0) frameBytes
      some (f, match findRun d1 run with
        | some r => putRun d1 { r with hbmFrames := r.hbmFrames ++ [f] } | none => d1)
    | [] => none
  | some v =>
    match pickFrames (loftUsed d) 1024 1 (v * 1024) with
    | f :: _ =>
      let d1 := dropRange { d with mem := memClear d.mem (frameAddr true f 0) frameBytes } (frameAddr true f 0) frameBytes
      some (f, match findRun d1 run with
        | some r => putRun d1 { r with loftFrames := r.loftFrames ++ [f] } | none => d1)
    | [] => none

/-- The code of an ORDER mode (R233). -/
def orderCode : Order → BitVec 2
  | .ordered => 0 | .staged => 1 | .live => 2

/-- Whether some task of the run may write the tensor (R442). -/
def mayBeWritten (t : Tensor) : Bool :=
  match t.readers, t.writers with
  | some _, none => false
  | _, some w => !w.isEmpty
  | none, none => true

/-- A tensor of an image. -/
def imgTensor (img : Image) (h : Nat) : Option Tensor := img.tensors.find? (fun t => t.handle = h)

/-- The table entry of a tile, from a list of entries. -/
def tileOf (l : List (Nat × TileEntry)) (t : Nat) : Option TileEntry :=
  (l.find? (fun p => p.1 = t)).map (·.2)

/-- Set the entry of a tile in the service's table and in the copies the units hold: a mapping followed by
TTINV (R237, R400). -/
def setTile (r : Run) (handle tile : Nat) (e : TileEntry) : Run :=
  { r with tables := r.tables.map fun t => if t.handle = handle
      then { t with entries := sput t.entries tile e, view := sput t.view tile e } else t }

/-- Write the initial bytes of an image that fall in tile `tile` of a tensor into the tile's frame at `base` (R46, R167). -/
def writeInitial (img : Image) (handle tile base : Nat) (m : List Host.Cell) : List Host.Cell :=
  (img.data.filter fun x => x.tensor = handle).foldl (fun m x =>
    let lo := max x.offset (tile * frameBytes)
    memWriteBytes m (base + lo - tile * frameBytes) ((x.bytes.drop (lo - x.offset)).take (tile * frameBytes + frameBytes - lo))) m

/-- The run and the entry of a tile that the service has mapped. -/
def mappedTile (d : Dev) (run handle tile : Nat) : Option (Run × TileEntry) :=
  (findRun d run).bind fun r => (((r.tables.find? fun x => x.handle = handle).bind fun x => tileOf x.entries tile).filter (·.v)).map
    fun e => (r, e)

/-- Map one tile of a tensor on a fresh frame from the run's declarations, with its initial contents (R46, R167, R378, R431,
R442); a tile that is mapped by then stays as it is, and the units take its entry; `none` when the tile lies beyond NTILES or no
frame is left. -/
def mapTile (d : Dev) (run : Nat) (t : Tensor) (tile : Nat) : Option Dev :=
  if t.ntiles ≤ tile then none
  else match mappedTile d run t.handle tile with
  | some x => some (putRun d (setTile x.1 t.handle tile x.2))
  | none => match allotFrame d run t.vault with
    | none => none
    | some (f, d1) =>
      match findRun d1 run with
      | none => none
      | some r => some (putRun { d1 with mem := writeInitial r.image t.handle tile (frameAddr t.vault.isSome f 0) d1.mem }
          (setTile r t.handle tile
          { loft := t.vault.isSome, order := orderCode t.order, lc := BitVec.ofNat 3 t.lc,
            w := mayBeWritten t, v := true, frame := f, reserved := 0 }))

/-- Map the tiles `0 .. n-1` of a tensor as far as frames last. -/
def mapTiles (run : Nat) (t : Tensor) (d : Dev) (n : Nat) : Dev :=
  (List.range n).foldl (fun d i => (mapTile d run t i).getD d) d

/-- Allot `n` loft frames in one vault for the run's window (R231). -/
def allotWindow (run : Nat) (n : Nat) (d : Dev) (vault : Nat) : Dev :=
  let fs := pickFrames (loftUsed d) 1024 n (vault * 1024)
  let d1 := fs.foldl (fun d f =>
    dropRange { d with mem := memClear d.mem (frameAddr true f 0) frameBytes } (frameAddr true f 0) frameBytes) d
  match findRun d1 run with
  | some r => putRun d1
      { r with loftFrames := r.loftFrames ++ fs, window := r.window ++ [(vault, fs)] }
  | none => d

/-! ### Tear-down (R222) -/

/-- Tear a run down: nothing of it runs on, entries of retired phases are folded, the others cancelled, and the live stores it has
not yet performed are dropped (log 57); a LAUNCH that reached the queue agent in this cycle is dropped with its status (R221), while
the status of one that the agent has decided is still written (R222). Its tables and frames remain until the service reclaims them (R432). -/
def tearDown (s : State) (run : Nat) : State :=
  match findRun s.dev run with
  | none => s
  | some r =>
    let rd := (ridge s run).getD (r.nextInstant, 0)
    let words := (s.dev.cells.filter fun c => c.run = run).map (·.word)
    let d := words.foldl (fun d w => foldCell d w rd) s.dev
    let d := { d with
      cells := d.cells.filter fun c => c.run != run
      cellq := d.cellq.filter fun q => q.run != run
      notices := d.notices.filter fun x => x.run != run
      staged := d.staged.filter fun x => x.run != run
      remote := d.remote.filter fun x => runOfKey x.who != some run
      pushes := d.pushes.filter fun x => runOfKey x.who != some run
      engineUses := d.engineUses.filter fun u => u.run != run
      liveq := d.liveq.filter fun q => runOfKey q.who != some run || q.unit = .agent
      orphanTraps := d.orphanTraps.filter fun x => x.run != run }
    let s1 := { s with dev := d }
    let s2 := (runActs s1 run).foldl (fun s a =>
      let s := leaveSlot s a
      removeAct { s with dev := dropCommands s.dev a.key } a.key) s1
    { s2 with dev := { s2.dev with
      runs := s2.dev.runs.filter fun x => x.num != run
      torn := s2.dev.torn ++ [{ run := r, ridge := rd }]
      queues := s2.dev.queues.map fun q => if q.run = some run then { q with run := none } else q } }

/-- Whether nothing of a run torn down is on its way any more (R222). -/
def reclaimable (d : Dev) (run : Nat) : Bool := d.liveq.all fun q => runOfKey q.who != some run

/-- The resident service reclaims a run torn down: its frames are free, to be cleared before they are allotted again (R432). -/
def reclaim (d : Dev) (run : Nat) : Dev :=
  if reclaimable d run then { d with
    torn := d.torn.filter fun x => x.run.num != run
    usedFrames := d.usedFrames ++ (d.torn.filter fun x => x.run.num = run).flatMap (·.run.hbmFrames) }
  else d

/-- Tear a run down and keep a record for RESYNC (R379, R382). -/
def tearDownKeeping (s : State) (run : Nat) (recs : List TrapRec) : State :=
  let s1 := tearDown s run
  { s1 with dev := { s1.dev with kept := s1.dev.kept ++ recs.map fun r => { run := run, record := r } } }

end Sys2Proof.Machine
end

