-- ==== Sys2Proof/Machine/Ops.lean ====
section
/-! DEFINITION. The operations every meaning shares: reading registers and tags, results in flight and their
landing, stalls, taking a trap and resuming from one, sequence numbers (R11-R26, R95, R190, R372-R383). -/
namespace Sys2Proof.Machine

/-! ### Registers -/

/-- Read a scalar register; s0 reads zero (R11). -/
def readS (a : Act) (r : SReg) : Word := if r = 0 then 0 else a.s[r.val]

/-- Read a vector register. -/
def readV (a : Act) (r : VReg) : Vec := a.v[r.val]

/-- The tag of a scalar register; s0 carries tag 30 (R13). -/
def tagS (a : Act) (r : SReg) : Tag := if r = 0 then tagUniversal else a.sTag[r.val]

/-- The tag of a vector register. -/
def tagV (a : Act) (r : VReg) : Tag := a.vTag[r.val]

/-- A scalar as the value of a result. -/
def vecOfWord (x : Word) : Vec := BitVec.ofNat 2048 x.toNat

/-- The scalar of a result's value. -/
def wordOfVec (x : Vec) : Word := BitVec.ofNat 64 x.toNat

/-- Write a scalar register; s0 discards (R11). -/
def writeS (a : Act) (r : SReg) (x : Word) (t : Tag) : Act :=
  if r = 0 then a else { a with s := a.s.set r.val x, sTag := a.sTag.set r.val t, badRegs := a.badRegs.filter fun x => x.1 != .s r }

/-- Write a vector register. -/
def writeV (a : Act) (r : VReg) (x : Vec) (t : Tag) : Act :=
  { a with v := a.v.set r.val x, vTag := a.vTag.set r.val t, badRegs := a.badRegs.filter fun x => x.1 != .v r }

/-- Give a destination's register a tag (R26). -/
def setDestTag (a : Act) (d : Dest) (t : Tag) : Act :=
  match d with
  | .s r => if r = 0 then a else { a with sTag := a.sTag.set r.val t }
  | .v r => { a with vTag := a.vTag.set r.val t }
  | .latches => a

/-- Write a value and a tag into a destination register. -/
def writeDest (a : Act) (d : Dest) (x : Vec) (t : Tag) : Act :=
  match d with
  | .s r => writeS a r (wordOfVec x) t
  | .v r => writeV a r x t
  | .latches => a

/-- The eight scale latches in the low bytes of a value (R349). -/
def latchesOfVec (x : Vec) : Vector (BitVec 8) 8 := Vector.ofFn fun i => BitVec.ofNat 8 (x.toNat / 2 ^ (8 * i.val))

/-- Set the latches of the activation's core (R349). -/
def setLatches (s : State) (x : Vec) : State :=
  match s.act.place with
  | some p => { s with dev := putCore s.dev p.core { getCore s.dev p.core with latches := latchesOfVec x } }
  | none => s

/-! ### Stale marks (R19, R128, R320) -/

/-- Whether a tag names one of the clocks. -/
def tagIn (ks : List (Fin 14)) (t : Tag) : Bool := ks.any fun k => k.val = t.toNat

/-- Mark a tag stale where it names one of the clocks. -/
def staleTag (ks : List (Fin 14)) (t : Tag) : Tag := if tagIn ks t then tagStale else t

/-- Mark stale what carries the tag of a redefined or freed clock: registers, feeds, results in flight or
awaited (R19, R320). -/
def markStale (ks : List (Fin 14)) (a : Act) : Act :=
  { a with
    sTag := mapVec (staleTag ks) a.sTag, vTag := mapVec (staleTag ks) a.vTag, eTag := mapVec (staleTag ks) a.eTag
    inflight := a.inflight.map fun f => if tagIn ks f.tag then { f with stale := true } else f
    pend := a.pend.map fun p => if tagIn ks p.tag then { p with stale := true } else p }

/-- The owned tiles of the activation in focus take stale tags in the same way (R19). -/
def markTiles (ks : List (Fin 14)) (s : State) : State :=
  match s.act.place with
  | some p =>
    let c := getCore s.dev p.core
    let tiles := (ownedTiles s s.act).foldl (fun (v : Vector Tile 16) (t : AReg) =>
      v.set t.val { v[t.val] with tag := staleTag ks v[t.val].tag }) c.tiles
    { s with dev := putCore s.dev p.core { c with tiles := tiles } }
  | none => s

/-! ### Results (R23-R26) -/

/-- Put a fixed-latency result in flight (R24). -/
def pushResult (s : State) (d : Dest) (x : Vec) (lat : Nat) (t : Tag) : State :=
  { s with act := { s.act with inflight := s.act.inflight ++
    [{ dest := d, val := x, tag := t, due := s.act.adv + lat, issued := s.act.adv, stale := tagIn s.iss.freed t
       timed := false, arrived := true, memx := none }] } }

/-- A scalar result in flight. -/
def resultS (s : State) (r : SReg) (x : Word) (lat : Nat) (t : Tag) : State :=
  pushResult s (.s r) (vecOfWord x) lat t

/-- A vector result in flight. -/
def resultV (s : State) (r : VReg) (x : Vec) (lat : Nat) (t : Tag) : State := pushResult s (.v r) x lat t

/-- A register awaits an interlocked result and takes its tag at once (R26). -/
def awaitResult (s : State) (d : Dest) (x : Vec) (t : Tag) (w : Awaiting) : State :=
  let stale := tagIn s.iss.freed t
  let a := setDestTag s.act d (if stale then tagStale else t)
  { s with act := { a with pend := a.pend ++ [{ dest := d, val := x, tag := t, stale := stale, wait := w }] } }

/-- The tag a destination's register carries; the latches have none. -/
def destTag (a : Act) : Dest → Tag
  | .s r => tagS a r
  | .v r => tagV a r
  | .latches => tagStale

/-- Whether a destination awaits an interlocked result. -/
def awaits (a : Act) (d : Dest) : Bool := a.pend.any fun p => p.dest = d

/-- A fixed-latency result lands: the value with its tag, stale where its clock has gone (R19). A register that awaits an
interlocked result issued later keeps that result's tag (R26). -/
def landFixed (a : Act) (f : InFlight) : Act :=
  writeDest a f.dest f.val (if awaits a f.dest then destTag a f.dest else if f.stale then tagStale else f.tag)

/-- An interlocked result lands; results issued earlier to the same register and not landed are discarded,
snapshot entries included (R26). -/
def landPend (a : Act) (p : Pend) : Act :=
  writeDest { a with
    pend := a.pend.erase p
    inflight := a.inflight.filter fun f => f.dest != p.dest
    snapshot := a.snapshot.filter fun f => f.dest != p.dest } p.dest p.val (if p.stale then tagStale else p.tag)

/-- The result that lands first: the least due cycle, and of equal ones the earliest issued (R25). -/
def firstDue : List InFlight → Option InFlight
  | [] => none
  | f :: rest => match firstDue rest with
    | some g => if g.due < f.due || (g.due = f.due && decide (g.issued < f.issued)) then some g else some f
    | none => some f

/-- The result that may land now (R24): due, and for a timed load its data have arrived (R238). -/
def landable (a : Act) : Option InFlight :=
  match firstDue (a.inflight.filter fun f => decide (f.due ≤ a.adv)) with
  | some f => if f.arrived then some f else none
  | none => none

/-- Whether a timed load holds the pipeline: due and its data not there (R238). -/
def frozenByTimedLoad (a : Act) : Bool :=
  a.inflight.any fun f => decide (f.due ≤ a.adv) && !f.arrived

/-! ### Sequence numbers -/

/-- The SEQ the next memory operation carries (R36). -/
def nextSeq (s : State) : Nat := s.act.seq.toNat

/-- A slot that takes effect raises SEQ by 1 (R36, R279). -/
def bumpSeq (s : State) : State := { s with act := { s.act with seq := s.act.seq + 1 } }

/-! ### Stalls -/

/-- The bundle stalls at issue: nothing of it has happened (R22, R26). -/
def stall (s : State) : State :=
  { s with act := s.act0, dev := s.dev0, iss := { s.iss with status := .stalled } }

/-- The bundle stalls at a point at which the core may switch slots (R193, R334). -/
def stallSwitch (s : State) : State :=
  { s with act := s.act0, dev := s.dev0, iss := { s.iss with status := .switched } }

/-! ### Traps -/

/-- TSTAMP (R373). -/
def tstampOf (st : Stamp) (seq : Nat) : Word :=
  BitVec.ofNat 64 (st.index % 2 ^ 24 * 2 ^ 40 + st.task % 256 * 2 ^ 32 + seq % 2 ^ 32)

/-- TCAUSE of a precise trap: code, slot mask, lowest slot (R61, R373). -/
def causeOf (code mask slot : Nat) : Nat := code + mask * 256 + slot * 65536

/-- Trap codes (R369). -/
def codeILLB : Nat := 0x01
def codeUNDEF : Nat := 0x02
def codeCLKF : Nat := 0x03
def codeCLKU : Nat := 0x04
def codeLOOPO : Nat := 0x05
def codeLOOPU : Nat := 0x06
def codeWIN : Nat := 0x07
def codeALIGN : Nat := 0x08
def codeXLAT : Nat := 0x09
def codePROT : Nat := 0x0A
def codeLATE : Nat := 0x0B
def codeHOVF : Nat := 0x0C
def codeFEED : Nat := 0x0D
def codeACC : Nat := 0x0E
def codeDUPST : Nat := 0x0F
def codeDUPRES : Nat := 0x10
def codeWEIGHT : Nat := 0x11
def codeFPX : Nat := 0x12
def codeSWT : Nat := 0x13
def codeBRK : Nat := 0x14
def codePRIV : Nat := 0x15
def codeENG : Nat := 0x16
def codeFMT : Nat := 0x17
def codeXEXP : Nat := 0x18
def codeMEMX : Nat := 0x19

/-- The results in flight as snapshot entries: `due` becomes the remaining distance (R376). -/
def toSnapshot (a : Act) : List InFlight :=
  (a.inflight.filter (·.arrived)).map fun f => { f with due := f.due - a.adv }

/-- An activation freezes: results in flight move to the snapshot buffer; a timed load whose data have not come
follows later (R286, R375, R376). -/
def freezeAct (a : Act) (r : TrapRec) (stage : FrozenStage) : Act :=
  { a with
    status := .frozen, frozen := some { record := r, stage := stage }
    snapshot := a.snapshot ++ toSnapshot a
    inflight := a.inflight.filter fun f => !f.arrived }

/-- The activation resumes: snapshot entries land at their distance from advance cycle `c` (R377). -/
def thawAct (a : Act) (c : Nat) : Act :=
  { a with
    status := .ready, frozen := none
    inflight := a.inflight ++ a.snapshot.map fun f => { f with due := c + f.due }
    snapshot := [] }

/-- Insert a result by the advance cycle of its issue, after those of the same cycle. -/
def insertIssued (f : InFlight) : List InFlight → List InFlight
  | [] => [f]
  | g :: rest => if f.issued < g.issued then f :: g :: rest else g :: insertIssued f rest

/-- Results in the order of their issue (R25). -/
def sortIssued (l : List InFlight) : List InFlight := l.foldl (fun acc f => insertIssued f acc) []

/-- A deferred trap becomes pending (R372); beyond eight, the unit that met it holds it. -/
def addDeferred (a : Act) (r : TrapRec) : Act :=
  if a.deferred.length < 8 then { a with deferred := a.deferred ++ [r] }
  else { a with deferredHeld := a.deferredHeld ++ [r] }

/-- A result of the slot in issue that never comes: its destination stays under interlock and the trap is pending (R264, R384). -/
def awaitFailed (s : State) (d : Dest) (x : Vec) (t : Tag) (r : TrapRec) : State :=
  let u := awaitResult s d x t (.never r)
  { u with act := addDeferred u.act r }

/-- A result with an uncorrectable error: its register stays under interlock and MEMX is pending (R384). -/
def landBad (a : Act) (f : InFlight) (r : TrapRec) : Act :=
  addDeferred { a with pend := a.pend ++ [{ dest := f.dest, val := 0, tag := f.tag, stale := f.stale, wait := .never r }] } r

/-- A result of a saved activation lands in its context (R377, R395). -/
def landSaved (a : Act) (f : InFlight) : Act :=
  match f.memx, f.dest, a.saved with
  | some r, _, _ => landBad a f r
  | none, .latches, some v => { a with saved := some { v with latches := latchesOfVec f.val } }
  | none, _, _ => landFixed a f

/-- The snapshot of a saved activation one advance cycle later: what was due at it lands (R377). -/
def skipSnapshot (a : Act) : Act :=
  ((sortIssued a.snapshot).filter fun f => decide (f.due ≤ 1)).foldl landSaved { a with
    snapshot := (a.snapshot.filter fun f => decide (1 < f.due)).map fun f => { f with due := f.due - 1 } }

/-- A result lands in an activation: in its register, or in the latches of its core (R349); a timed load whose data
had an uncorrectable error leaves its register under interlock and makes MEMX pending (R384). -/
def landResult (s : State) (a : Act) (f : InFlight) : State :=
  let b := { a with inflight := a.inflight.erase f }
  match f.memx with
  | some r => putAct s (landBad b f r)
  | none =>
    match f.dest, b.place with
    | .latches, some p =>
      putAct { s with dev := putCore s.dev p.core { getCore s.dev p.core with latches := latchesOfVec f.val } } b
    | _, _ => putAct s (landFixed b f)

/-- Every due result of an activation lands, in order (R24, R25). -/
def landDue : Nat → ActKey → State → State
  | 0, _, s => s
  | n + 1, k, s =>
    match findAct s k with
    | none => s
    | some a => match landable a with
      | some f => landDue n k (landResult s a f)
      | none => s

/-- A frozen activation resumes with its record in the trap-record CSRs, those of a handler activation apart (R373): in its
slot at once, a saved one once it is placed (R395). -/
def resumeAct (a : Act) (r : TrapRec) : Act :=
  { (if a.saved.isSome then { a with frozen := none } else thawAct a a.adv) with
    trap := if isHandler a then a.trap else r, status := if a.place.isSome then .ready else .pending }

/-- The core's running slot leaves it to the next choice (R193). -/
def yieldCore (s : State) (a : Act) : State :=
  match a.place with
  | some p =>
    if p.core < 32 then
      let c := getCore s.dev p.core
      if c.current = some p.slot then { s with dev := putCore s.dev p.core { c with current := none } } else s
    else if h : p.core - 32 < 4 then
      { s with dev := { s.dev with stewards := s.dev.stewards.set (p.core - 32) none h } }
    else s
  | none => s

/-- The resident service maps the tile of an XLAT from the run's declarations (R378). -/
def serviceMap (s : State) (run : Nat) (addr : Nat) : Option State :=
  match findRun s.dev run with
  | none => none
  | some r =>
    match imgTensor r.image (addr / 2 ^ 44 % 4096) with
    | none => none
    | some t => (mapTile s.dev run t (addr % 2 ^ 44 / frameBytes)).map fun d => { s with dev := d }

/-- The code of a record. -/
def recCode (r : TrapRec) : Nat := r.cause.toNat % 256

/-- An activation that the service resumes leaves the handle it had, in its slot or saved (R383, R395). -/
def dropHandle (s : State) (k : ActKey) : State :=
  match findAct s k with
  | none => s
  | some a =>
    match actRun s a with
    | some r =>
      let t := putAct s { a with handle := 0 }
      { t with dev := putRun t.dev (freeHandles r k) }
    | none => s

/-- A frozen trap is delivered (R378-R382): an XLAT is repaired by the service, which resumes the slot under
mode 0; any other waits for its handler, or for the tear-down that takes its place. -/
def deliverTrap (s : State) (k : ActKey) : State :=
  match findAct s k with
  | none => s
  | some a =>
    match a.frozen, runOfKey k with
    | some f, some n =>
      let repaired := if recCode f.record = codeXLAT then serviceMap s n f.record.addr.toNat else none
      match repaired with
      | some s1 => dropHandle (putAct s1 (resumeAct a f.record)) k
      | none => putAct s { a with frozen := some { f with stage := .delivered }, waitSince := s.dev.cycle }
    | _, _ => s

/-- What is to happen to a trap an activation meets: a speculative one holds it (R190); one whose effects have not been released yet
delivers it after them (R189). -/
def trapStage (s : State) (a : Act) : FrozenStage :=
  if speculative s a then .held else if a.held.isEmpty then .delivered else .behind

/-- The activation in focus freezes with a record (R375). -/
def freezeWith (s : State) (r : TrapRec) : State :=
  let g := trapStage s s.act
  let s1 := yieldCore { s with act := freezeAct s.act r g } s.act
  if g = .delivered then deliverTrap s1 s.act.key else s1

/-- Take a trap at the bundle in issue (R23, R373, R375): the bundle is cancelled, the record names its
address and the SEQ before it, and the slot freezes. -/
def takeTrap (s : State) (cause addr info : Nat) : State :=
  freezeWith { s with act := s.act0, dev := s.dev0, iss := { s.iss with status := .trapped } }
    { cause := BitVec.ofNat 64 cause, pc := BitVec.ofNat 64 s.act0.pc, addr := BitVec.ofNat 64 addr
      stamp := tstampOf s.act0.stamp s.act0.seq.toNat, info := BitVec.ofNat 64 info }

/-- A trap of the slot in issue alone: its bit in MASK, its number in SLOT (R61, R373). -/
def slotTrap (s : State) (code addr info : Nat) : State :=
  takeTrap s (causeOf code (2 ^ s.iss.slot) s.iss.slot) addr info

/-- A deferred trap is raised at its delivery bundle: DEFER set, MASK and SLOT zero, TPC the delivery bundle
(R372, R373). The place it frees goes to the trap a unit has held longest. -/
def takeDeferred (s : State) (r : TrapRec) (rest : List TrapRec) : State :=
  let a := { s.act0 with
    deferred := rest ++ s.act0.deferredHeld.take 1, deferredHeld := s.act0.deferredHeld.drop 1 }
  freezeWith { s with act := a, dev := s.dev0, iss := { s.iss with status := .trapped } }
    { r with pc := BitVec.ofNat 64 a.pc }

/-- The record of a deferred trap; TPC is set when it is raised (R373, R374). -/
def deferredRec (code addr info : Nat) (st : Stamp) (seq : Nat) : TrapRec :=
  { cause := BitVec.ofNat 64 (code + 2 ^ 19), pc := 0, addr := BitVec.ofNat 64 addr
    stamp := tstampOf st seq, info := BitVec.ofNat 64 info }

/-! ### Decoding code bytes -/

/-- The slot word at a byte address of a code section. -/
def codeWord (code : List Byte) (pc : Nat) : Option (BitVec 32) :=
  match (code.drop pc).take 4 with
  | [b0, b1, b2, b3] => some (BitVec.ofNat 32 (natOfBytes [b0, b1, b2, b3]))
  | _ => none

/-- The words of the bundle at `pc`, at most `fuel` slots, up to the stop bit (R21): `ok` when a stop bit ends it,
`open_` when eight slots have none, `off` when the section ends first (R108). -/
inductive Fetched where
  | ok (words : List (BitVec 32))
  | open_ (words : List (BitVec 32))
  | off
  deriving DecidableEq, Repr

/-- Fetch up to `fuel` slots. -/
def fetchFrom (code : List Byte) : Nat → Nat → List (BitVec 32) → Fetched
  | 0, _, acc => .open_ acc
  | fuel + 1, pc, acc =>
    match codeWord code pc with
    | none => .off
    | some w => if w.getLsbD 31 then .ok (acc ++ [w]) else fetchFrom code fuel (pc + 4) (acc ++ [w])

/-- Fetch the bundle at an address. -/
def fetchBundle (code : List Byte) (pc : Nat) : Fetched := fetchFrom code 8 pc []

/-- The number of slots from `pc` up to the stop bit; one where the section ends before it, which RFT mode 1 then skips (log 16). -/
def bundleSlots (code : List Byte) (pc : Nat) : Nat :=
  match fetchBundle code pc with
  | .ok ws => ws.length
  | .open_ ws => ws.length
  | .off => 1

/-- The address after `n` stop bits from `pc`, at most `fuel` slots on. -/
def skipStops (code : List Byte) : Nat → Nat → Nat → Nat
  | 0, _, pc => pc
  | fuel + 1, n, pc =>
    if n = 0 then pc
    else match codeWord code pc with
      | none => pc
      | some w => skipStops code fuel (if w.getLsbD 31 then n - 1 else n) (pc + 4)

/-- The address after `n` stop bits from `pc` (R111): the bundle that follows `n` bundles. A body that reaches past the code
section ends with it, and the WIN is that of the next fetch (log 55). -/
def skipBundles (code : List Byte) (n pc : Nat) : Nat := skipStops code (code.length / 4 + 1) n pc

/-- The address of the last bundle of a body (R27, R113). -/
def bodyLast (code : List Byte) (l : Level) : Nat := skipBundles code (l.len - 1) l.start

/-- The address of the bundle after a body. -/
def bodyAfter (code : List Byte) (l : Level) : Nat := skipBundles code l.len l.start

/-- The number of the bundle at an address: bundles count from 0 in the order of the code section (R167). -/
def bundleNumber (code : List Byte) : Nat → Nat → Nat → Nat → Nat
  | 0, _, _, n => n
  | fuel + 1, at_, target, n =>
    if target ≤ at_ then n else bundleNumber code fuel (at_ + 4 * bundleSlots code at_) target (n + 1)

/-- Whether the bundle at `pc` is the last of the innermost active body. -/
def endsBody (code : List Byte) (a : Act) (pc : Nat) : Bool :=
  match a.loops with
  | l :: _ => bodyLast code l = pc
  | [] => false

/-! ### Return from a trap -/

/-- Resume a frozen activation (R377, R395): mode 0 reissues the bundle, mode 1 goes on after it as though it had
issued with no effect; the trap-record CSRs take the record, and the handle is freed. -/
def returnFromTrap (s : State) (k : ActKey) (mode : Nat) : State :=
  match findAct s k with
  | none => s
  | some a =>
    match a.frozen with
    | none => s
    | some f =>
      let code := codeOf s a
      let b := { resumeAct a f.record with handle := 0 }
      let c := if mode = 0 then b
        else { (if a.saved.isSome then skipSnapshot b else b) with
          pc := a.pc + 4 * bundleSlots code a.pc, adv := a.adv + 1, passEnd := endsBody code a a.pc, boundary := false }
      let s1 := putAct s c
      match (runOfKey k).bind (findRun s1.dev) with
      | some r => { s1 with dev := putRun s1.dev (freeHandles r k) }
      | none => s1

end Sys2Proof.Machine
end

