-- ==== Sys2Proof/Machine/Operands.lean ====
section
/-! DEFINITION. Operands: which registers each instruction reads and which resources it writes (R15, R58, R63),
its unit (R59), the immediate under literal extension (R56), and the structural checks of issue (R15-R17,
R127-R136, R370 step 5). -/
namespace Sys2Proof.Machine

/-- A register an instruction reads. -/
inductive Src where
  | s (r : SReg)
  | v (r : VReg)
  | e (r : EReg)
  | a (r : AReg)
  deriving DecidableEq, Repr

/-- A resource an instruction writes, pops or pushes (R58). -/
inductive Res where
  | s (r : SReg)
  | v (r : VReg)
  | k (r : CReg)
  | e (r : EReg)
  | a (r : AReg)
  | bank (w1 : Bool)
  | latches
  | csr (n : Nat)
  | pop (r : EReg)
  | push (r : EReg)
  deriving DecidableEq, Repr

/-- The unit kinds of R59. -/
inductive UnitKind where
  | salu | smul | vector | vdiv | memory | matrix | control | clock | engine | none
  deriving DecidableEq, Repr

/-- Whether a VCVT keeps lanes of vD and therefore reads it: narrowing, and from x128 (R87, R139, R145). -/
def cvtKeepsLanes (dst src : Fmt4) : Bool := src = .x128 || decide (fmt4Width dst < fmt4Width src)

/-- The K field of an instruction; rows without an encoding have none and answer k0. -/
def kOf : Instr → KSel
  | .add k _ _ _ => k
  | .sub k _ _ _ => k
  | .and k _ _ _ => k
  | .or k _ _ _ => k
  | .xor k _ _ _ => k
  | .andn k _ _ _ => k
  | .shl k _ _ _ => k
  | .shr k _ _ _ => k
  | .sar k _ _ _ => k
  | .rotr k _ _ _ => k
  | .min k _ _ _ => k
  | .max k _ _ _ => k
  | .minn k _ _ _ => k
  | .maxn k _ _ _ => k
  | .seq k _ _ _ => k
  | .sne k _ _ _ => k
  | .slt k _ _ _ => k
  | .sltn k _ _ _ => k
  | .sel k _ _ _ => k
  | .clz k _ _ => k
  | .ctz k _ _ => k
  | .popc k _ _ => k
  | .padd k _ _ _ => k
  | .mul k _ _ _ => k
  | .mulh k _ _ _ => k
  | .mulhn k _ _ _ => k
  | .div k _ _ _ => k
  | .divn k _ _ _ => k
  | .rem k _ _ _ => k
  | .remn k _ _ _ => k
  | .addi k _ _ _ => k
  | .andi k _ _ _ => k
  | .ori k _ _ _ => k
  | .xori k _ _ _ => k
  | .shli k _ _ _ => k
  | .shri k _ _ _ => k
  | .sari k _ _ _ => k
  | .slti k _ _ _ => k
  | .sltni k _ _ _ => k
  | .li k _ _ => k
  | .csrr k _ _ => k
  | .csrw k _ _ => k
  | .csrs k _ _ => k
  | .csrc k _ _ => k
  | .br k _ => k
  | .jal k _ => k
  | .jalr k _ _ _ => k
  | .loop k _ _ => k
  | .loopi k _ _ => k
  | .lidx k _ _ => k
  | .lbrk k => k
  | .lnext k => k
  | .ldepth k _ => k
  | .nop k => k
  | .yield k => k
  | .endAct k => k
  | .brk k => k
  | .waitGen k _ _ => k
  | .waitRidge k => k
  | .waitEq k _ _ => k
  | .waitGe k _ _ => k
  | .waitFeed k _ => k
  | .trap k _ => k
  | .clkon k _ _ => k
  | .clkoff k _ _ => k
  | .clksplit k _ _ => k
  | .clkq k _ _ => k
  | .clkundef k _ => k
  | .whenScalar k _ _ => k
  | .whenVector k _ _ => k
  | .currScalar k _ _ => k
  | .currVector k _ _ => k
  | .mergeScalar k _ _ _ => k
  | .mergeVector k _ _ _ => k
  | .vadd k _ _ _ _ _ => k
  | .vsub k _ _ _ _ _ => k
  | .vmul k _ _ _ _ _ => k
  | .vfma k _ _ _ _ _ => k
  | .vfms k _ _ _ _ _ => k
  | .vfnma k _ _ _ _ _ => k
  | .vdiv k _ _ _ _ _ => k
  | .vsqrt k _ _ _ _ => k
  | .vminmax k _ _ _ _ _ => k
  | .vcmp k _ _ _ _ _ => k
  | .vcvt k _ _ _ _ _ => k
  | .vbitAnd k _ _ _ => k
  | .vbitOr k _ _ _ => k
  | .vbitXor k _ _ _ => k
  | .vbitAndn k _ _ _ => k
  | .vbitNot k _ _ => k
  | .vshiftShl k _ _ _ _ => k
  | .vshiftShr k _ _ _ _ => k
  | .vshiftSar k _ _ _ _ => k
  | .vshiftRotr k _ _ _ _ => k
  | .vunaryAbs k _ _ _ => k
  | .vunaryNeg k _ _ _ => k
  | .vunaryClass k _ _ _ => k
  | .vunaryGetexp k _ _ _ => k
  | .vunaryClz k _ _ _ => k
  | .vunaryPopc k _ _ _ => k
  | .vunaryRcpe k _ _ _ => k
  | .vunaryRsqe k _ _ _ => k
  | .vscalb k _ _ _ _ _ => k
  | .vsel k _ _ _ _ => k
  | .vbcast k _ _ _ => k
  | .vext k _ _ _ _ => k
  | .vins k _ _ _ _ => k
  | .vperm k _ _ _ _ => k
  | .vslideup k _ _ _ _ => k
  | .vslidedn k _ _ _ _ => k
  | .viota k _ _ => k
  | .vredSum k _ _ _ _ => k
  | .vredMin k _ _ _ _ => k
  | .vredMax k _ _ _ _ => k
  | .vredFsumx k _ _ _ _ => k
  | .vredScan k _ _ _ _ => k
  | .vredAnd k _ _ _ => k
  | .vredOr k _ _ _ => k
  | .vredXor k _ _ _ => k
  | .vxaccP32 k _ _ _ => k
  | .vxaccS32 k _ _ => k
  | .vxaccP64 k _ _ _ => k
  | .vxaccS64 k _ _ => k
  | .xinit k _ _ => k
  | .xadd k _ _ _ => k
  | .xexpp k _ _ _ => k
  | .xexps k _ _ => k
  | .spawn k _ _ _ => k
  | .spawnc k _ _ _ => k
  | .launch k _ _ _ => k
  | .resolve k _ _ => k
  | .resolven k _ _ => k
  | .ld k _ _ _ _ => k
  | .st k _ _ _ _ => k
  | .vld k _ _ _ => k
  | .vldFeedPop k _ _ => k
  | .vst k _ _ _ => k
  | .vstFeedPush k _ _ => k
  | .fbyScalar k _ _ _ => k
  | .fbyVector k _ _ _ => k
  | .vlds k _ _ _ _ => k
  | .vsts k _ _ _ _ => k
  | .vgath k _ _ _ _ => k
  | .vscat k _ _ _ _ => k
  | .atomAdd k _ _ _ => k
  | .atomMin k _ _ _ => k
  | .atomMax k _ _ _ => k
  | .atomMinn k _ _ _ => k
  | .atomMaxn k _ _ _ => k
  | .atomAnd k _ _ _ => k
  | .atomOr k _ _ _ => k
  | .atomXor k _ _ _ => k
  | .xadd32 k _ _ => k
  | .fetchadd k _ _ _ _ => k
  | .swap k _ _ _ _ => k
  | .fetchmin k _ _ _ _ => k
  | .fetchmax k _ _ _ _ => k
  | .cas k _ _ _ _ => k
  | .ldacq k _ _ _ => k
  | .strel k _ _ _ => k
  | .fence k _ => k
  | .cpy k _ _ => k
  | .cpysum k _ _ _ => k
  | .coll k _ _ _ => k
  | .pref k _ _ => k
  | .fbind k _ _ => k
  | .funbind k _ => k
  | .fflush k _ => k
  | .fstat k _ _ => k
  | .mmaW0 k _ _ _ => k
  | .mmaW1 k _ _ _ => k
  | .mmasW0 k _ _ _ => k
  | .mmasW1 k _ _ _ => k
  | .wldW0 k _ _ => k
  | .wldW1 k _ _ => k
  | .scl k _ => k
  | .acol k _ _ _ => k
  | .azero k _ _ => k
  | .anorm k _ _ => k
  | .aexp k _ _ => k
  | .awrite k _ _ _ => k
  | .awriteAdd k _ _ _ => k
  | .astat k _ _ => k
  | .aread k _ _ _ _ => k
  | .rft k _ _ => k
  | .kill k _ _ => k
  | .snapr k _ _ _ => k
  | .snapw k _ _ _ => k
  | .ctxsv k _ _ _ => k
  | .ctxld k _ _ _ => k
  | .ttinv k _ _ => k
  | .halt k => k
  | .ldt k _ _ _ _ => k
  | _ => .clk 0

/-- The registers an instruction reads, in the order A, B, D (R15, R137); wait.feed reads none (log 45). -/
def readsOf : Instr → List Src
  | .add _ _ a b => [.s a, .s b]
  | .sub _ _ a b => [.s a, .s b]
  | .and _ _ a b => [.s a, .s b]
  | .or _ _ a b => [.s a, .s b]
  | .xor _ _ a b => [.s a, .s b]
  | .andn _ _ a b => [.s a, .s b]
  | .shl _ _ a b => [.s a, .s b]
  | .shr _ _ a b => [.s a, .s b]
  | .sar _ _ a b => [.s a, .s b]
  | .rotr _ _ a b => [.s a, .s b]
  | .min _ _ a b => [.s a, .s b]
  | .max _ _ a b => [.s a, .s b]
  | .minn _ _ a b => [.s a, .s b]
  | .maxn _ _ a b => [.s a, .s b]
  | .seq _ _ a b => [.s a, .s b]
  | .sne _ _ a b => [.s a, .s b]
  | .slt _ _ a b => [.s a, .s b]
  | .sltn _ _ a b => [.s a, .s b]
  | .sel _ d a b => [.s a, .s b, .s d]
  | .clz _ _ a => [.s a]
  | .ctz _ _ a => [.s a]
  | .popc _ _ a => [.s a]
  | .padd _ _ a b => [.s a, .s b]
  | .mul _ _ a b => [.s a, .s b]
  | .mulh _ _ a b => [.s a, .s b]
  | .mulhn _ _ a b => [.s a, .s b]
  | .div _ _ a b => [.s a, .s b]
  | .divn _ _ a b => [.s a, .s b]
  | .rem _ _ a b => [.s a, .s b]
  | .remn _ _ a b => [.s a, .s b]
  | .addi _ _ a _ => [.s a]
  | .andi _ _ a _ => [.s a]
  | .ori _ _ a _ => [.s a]
  | .xori _ _ a _ => [.s a]
  | .shli _ _ a _ => [.s a]
  | .shri _ _ a _ => [.s a]
  | .sari _ _ a _ => [.s a]
  | .slti _ _ a _ => [.s a]
  | .sltni _ _ a _ => [.s a]
  | .csrw _ a _ => [.s a]
  | .csrs _ a _ => [.s a]
  | .csrc _ a _ => [.s a]
  | .jalr _ _ a _ => [.s a]
  | .loop _ a _ => [.s a]
  | .waitGen _ a b => [.s a, .s b]
  | .waitFeed _ a => [.e a]
  | .waitEq _ a b => [.s a, .s b]
  | .waitGe _ a b => [.s a, .s b]
  | .clkon _ _ a => [.s a]
  | .clkoff _ _ a => [.s a]
  | .clksplit _ _ a => [.s a]
  | .whenScalar _ _ a => [.s a]
  | .whenVector _ _ a => [.v a]
  | .currScalar _ _ a => [.s a]
  | .currVector _ _ a => [.v a]
  | .mergeScalar _ _ a b => [.s a, .s b]
  | .mergeVector _ _ a b => [.v a, .v b]
  | .vadd _ _ a b _ _ => [.v a, .v b]
  | .vsub _ _ a b _ _ => [.v a, .v b]
  | .vmul _ _ a b _ _ => [.v a, .v b]
  | .vfma _ d a b _ _ => [.v a, .v b, .v d]
  | .vfms _ d a b _ _ => [.v a, .v b, .v d]
  | .vfnma _ d a b _ _ => [.v a, .v b, .v d]
  | .vdiv _ _ a b _ _ => [.v a, .v b]
  | .vsqrt _ _ a _ _ => [.v a]
  | .vminmax _ _ a b _ _ => [.v a, .v b]
  | .vcmp _ _ a b _ _ => [.v a, .v b]
  | .vcvt _ d a dst src _ => if cvtKeepsLanes dst src then [.v a, .v d] else [.v a]
  | .vbitAnd _ _ a b => [.v a, .v b]
  | .vbitOr _ _ a b => [.v a, .v b]
  | .vbitXor _ _ a b => [.v a, .v b]
  | .vbitAndn _ _ a b => [.v a, .v b]
  | .vbitNot _ _ a => [.v a]
  | .vshiftShl _ _ a b _ => [.v a, .v b]
  | .vshiftShr _ _ a b _ => [.v a, .v b]
  | .vshiftSar _ _ a b _ => [.v a, .v b]
  | .vshiftRotr _ _ a b _ => [.v a, .v b]
  | .vunaryAbs _ _ a _ => [.v a]
  | .vunaryNeg _ _ a _ => [.v a]
  | .vunaryClass _ _ a _ => [.v a]
  | .vunaryGetexp _ _ a _ => [.v a]
  | .vunaryClz _ _ a _ => [.v a]
  | .vunaryPopc _ _ a _ => [.v a]
  | .vunaryRcpe _ _ a _ => [.v a]
  | .vunaryRsqe _ _ a _ => [.v a]
  | .vscalb _ _ a b _ _ => [.v a, .v b]
  | .vsel _ d a b _ => [.v a, .v b, .v d]
  | .vbcast _ _ a _ => [.s a]
  | .vext _ _ a b _ => [.v a, .s b]
  | .vins _ d a b _ => [.s a, .s b, .v d]
  | .vperm _ _ a b _ => [.v a, .v b]
  | .vslideup _ _ a b _ => [.v a, .s b]
  | .vslidedn _ _ a b _ => [.v a, .s b]
  | .vredSum _ _ a _ _ => [.v a]
  | .vredMin _ _ a _ _ => [.v a]
  | .vredMax _ _ a _ _ => [.v a]
  | .vredFsumx _ _ a _ _ => [.v a]
  | .vredScan _ _ a _ _ => [.v a]
  | .vredAnd _ _ a _ => [.v a]
  | .vredOr _ _ a _ => [.v a]
  | .vredXor _ _ a _ => [.v a]
  | .vxaccP32 _ d a b => [.v a, .v b, .v d]
  | .vxaccS32 _ d a => [.v a, .v d]
  | .vxaccP64 _ d a b => [.v a, .v b, .v d]
  | .vxaccS64 _ d a => [.v a, .v d]
  | .xinit _ _ a => [.s a]
  | .xadd _ _ a b => [.v a, .v b]
  | .xexpp _ d a b => [.v a, .v b, .v d]
  | .xexps _ d a => [.v a, .v d]
  | .spawn _ d a b => [.s a, .s b, .s d]
  | .spawnc _ d a b => [.s a, .s b, .s d]
  | .launch _ d a b => [.s a, .s b, .s d]
  | .resolve _ a b => [.s a, .s b]
  | .resolven _ a b => [.s a, .s b]
  | .ld _ _ a _ _ => [.s a]
  | .st _ d a _ _ => [.s a, .s d]
  | .vld _ _ a _ => [.s a]
  | .vldFeedPop _ _ a => [.e a]
  | .vst _ d a _ => [.s a, .v d]
  | .vstFeedPush _ d a => [.e a, .v d]
  | .fbyScalar _ _ a b => [.s a, .s b]
  | .fbyVector _ _ a b => [.s a, .v b]
  | .vlds _ _ a b _ => [.s a, .s b]
  | .vsts _ d a b _ => [.s a, .s b, .v d]
  | .vgath _ _ a b _ => [.s a, .v b]
  | .vscat _ d a b _ => [.s a, .v b, .v d]
  | .atomAdd _ a b _ => [.s a, .s b]
  | .atomMin _ a b _ => [.s a, .s b]
  | .atomMax _ a b _ => [.s a, .s b]
  | .atomMinn _ a b _ => [.s a, .s b]
  | .atomMaxn _ a b _ => [.s a, .s b]
  | .atomAnd _ a b _ => [.s a, .s b]
  | .atomOr _ a b _ => [.s a, .s b]
  | .atomXor _ a b _ => [.s a, .s b]
  | .xadd32 _ a b => [.s a, .s b]
  | .fetchadd _ _ a b _ => [.s a, .s b]
  | .swap _ _ a b _ => [.s a, .s b]
  | .fetchmin _ _ a b _ => [.s a, .s b]
  | .fetchmax _ _ a b _ => [.s a, .s b]
  | .cas _ d a b _ => [.s a, .s b, .s d]
  | .ldacq _ _ a _ => [.s a]
  | .strel _ d a _ => [.s a, .s d]
  | .cpy _ a b => [.s a, .s b]
  | .cpysum _ d a b => [.s a, .s b, .s d]
  | .coll _ d a b => [.s a, .s b, .s d]
  | .pref _ a b => [.s a, .s b]
  | .fbind _ _ a => [.s a]
  | .mmaW0 _ d a b => [.e a, .s b, .a d]
  | .mmaW1 _ d a b => [.e a, .s b, .a d]
  | .mmasW0 _ d a b => [.e a, .e (a + 1), .s b, .a d]
  | .mmasW1 _ d a b => [.e a, .e (a + 1), .s b, .a d]
  | .wldW0 _ a b => [.e a, .s b]
  | .wldW1 _ a b => [.e a, .s b]
  | .scl _ a => [.v a]
  | .acol _ d a b => [.v a, .s b, .a d]
  | .azero _ _ a => [.s a]
  | .anorm _ d a => [.s a, .a d]
  | .aexp _ d a => [.s a, .a d]
  | .awrite _ d a b => [.v a, .s b, .a d]
  | .awriteAdd _ d a b => [.v a, .s b, .a d]
  | .astat _ _ a => [.a a]
  | .aread _ _ a b _ => [.a a, .s b]
  | .rft _ a b => [.s a, .s b]
  | .kill _ a b => [.s a, .s b]
  | .snapr _ _ a b => [.s a, .s b]
  | .snapw _ d a b => [.s a, .s b, .s d]
  | .ctxsv _ _ a b => [.s a, .s b]
  | .ctxld _ _ a b => [.s a, .s b]
  | .ttinv _ a b => [.s a, .s b]
  | .ldt _ _ a _ _ => [.s a]
  | _ => []

/-- The resources an instruction writes, pops or pushes (R58, R63). -/
def writesOf : Instr → List Res
  | .add _ d _ _ => [.s d]
  | .sub _ d _ _ => [.s d]
  | .and _ d _ _ => [.s d]
  | .or _ d _ _ => [.s d]
  | .xor _ d _ _ => [.s d]
  | .andn _ d _ _ => [.s d]
  | .shl _ d _ _ => [.s d]
  | .shr _ d _ _ => [.s d]
  | .sar _ d _ _ => [.s d]
  | .rotr _ d _ _ => [.s d]
  | .min _ d _ _ => [.s d]
  | .max _ d _ _ => [.s d]
  | .minn _ d _ _ => [.s d]
  | .maxn _ d _ _ => [.s d]
  | .seq _ d _ _ => [.s d]
  | .sne _ d _ _ => [.s d]
  | .slt _ d _ _ => [.s d]
  | .sltn _ d _ _ => [.s d]
  | .sel _ d _ _ => [.s d]
  | .clz _ d _ => [.s d]
  | .ctz _ d _ => [.s d]
  | .popc _ d _ => [.s d]
  | .padd _ d _ _ => [.s d]
  | .mul _ d _ _ => [.s d]
  | .mulh _ d _ _ => [.s d]
  | .mulhn _ d _ _ => [.s d]
  | .div _ d _ _ => [.s d]
  | .divn _ d _ _ => [.s d]
  | .rem _ d _ _ => [.s d]
  | .remn _ d _ _ => [.s d]
  | .addi _ d _ _ => [.s d]
  | .andi _ d _ _ => [.s d]
  | .ori _ d _ _ => [.s d]
  | .xori _ d _ _ => [.s d]
  | .shli _ d _ _ => [.s d]
  | .shri _ d _ _ => [.s d]
  | .sari _ d _ _ => [.s d]
  | .slti _ d _ _ => [.s d]
  | .sltni _ d _ _ => [.s d]
  | .li _ d _ => [.s d]
  | .csrr _ d _ => [.s d]
  | .csrw _ _ c => [.csr c.val]
  | .csrs _ _ c => [.csr c.val]
  | .csrc _ _ c => [.csr c.val]
  | .jal _ _ => [.s 30]
  | .jalr _ d _ _ => [.s d]
  | .lidx _ d _ => [.s d]
  | .ldepth _ d => [.s d]
  | .clkon _ d _ => [.k d]
  | .clkoff _ d _ => [.k d]
  | .clksplit _ d _ => [.k d, .k (d + 1)]
  | .clkq _ d _ => [.s d]
  | .clkundef _ d => [.k d]
  | .whenScalar _ d _ => [.s d]
  | .whenVector _ d _ => [.v d]
  | .currScalar _ d _ => [.s d]
  | .currVector _ d _ => [.v d]
  | .mergeScalar _ d _ _ => [.s d]
  | .mergeVector _ d _ _ => [.v d]
  | .vadd _ d _ _ _ _ => [.v d]
  | .vsub _ d _ _ _ _ => [.v d]
  | .vmul _ d _ _ _ _ => [.v d]
  | .vfma _ d _ _ _ _ => [.v d]
  | .vfms _ d _ _ _ _ => [.v d]
  | .vfnma _ d _ _ _ _ => [.v d]
  | .vdiv _ d _ _ _ _ => [.v d]
  | .vsqrt _ d _ _ _ => [.v d]
  | .vminmax _ d _ _ _ _ => [.v d]
  | .vcmp _ d _ _ _ _ => [.v d]
  | .vcvt _ d _ _ _ _ => [.v d]
  | .vbitAnd _ d _ _ => [.v d]
  | .vbitOr _ d _ _ => [.v d]
  | .vbitXor _ d _ _ => [.v d]
  | .vbitAndn _ d _ _ => [.v d]
  | .vbitNot _ d _ => [.v d]
  | .vshiftShl _ d _ _ _ => [.v d]
  | .vshiftShr _ d _ _ _ => [.v d]
  | .vshiftSar _ d _ _ _ => [.v d]
  | .vshiftRotr _ d _ _ _ => [.v d]
  | .vunaryAbs _ d _ _ => [.v d]
  | .vunaryNeg _ d _ _ => [.v d]
  | .vunaryClass _ d _ _ => [.v d]
  | .vunaryGetexp _ d _ _ => [.v d]
  | .vunaryClz _ d _ _ => [.v d]
  | .vunaryPopc _ d _ _ => [.v d]
  | .vunaryRcpe _ d _ _ => [.v d]
  | .vunaryRsqe _ d _ _ => [.v d]
  | .vscalb _ d _ _ _ _ => [.v d]
  | .vsel _ d _ _ _ => [.v d]
  | .vbcast _ d _ _ => [.v d]
  | .vext _ d _ _ _ => [.s d]
  | .vins _ d _ _ _ => [.v d]
  | .vperm _ d _ _ _ => [.v d]
  | .vslideup _ d _ _ _ => [.v d]
  | .vslidedn _ d _ _ _ => [.v d]
  | .viota _ d _ => [.v d]
  | .vredSum _ d _ _ _ => [.v d]
  | .vredMin _ d _ _ _ => [.v d]
  | .vredMax _ d _ _ _ => [.v d]
  | .vredFsumx _ d _ _ _ => [.v d]
  | .vredScan _ d _ _ _ => [.v d]
  | .vredAnd _ d _ _ => [.v d]
  | .vredOr _ d _ _ => [.v d]
  | .vredXor _ d _ _ => [.v d]
  | .vxaccP32 _ d _ _ => [.v d]
  | .vxaccS32 _ d _ => [.v d]
  | .vxaccP64 _ d _ _ => [.v d]
  | .vxaccS64 _ d _ => [.v d]
  | .xinit _ d _ => [.v d]
  | .xadd _ d _ _ => [.v d]
  | .xexpp _ d _ _ => [.v d]
  | .xexps _ d _ => [.v d]
  | .ld _ d _ _ _ => [.s d]
  | .vld _ d _ _ => [.v d]
  | .vldFeedPop _ d a => [.v d, .pop a]
  | .vstFeedPush _ _ a => [.push a]
  | .fbyScalar _ d _ _ => [.s d]
  | .fbyVector _ d _ _ => [.v d]
  | .vlds _ d _ _ _ => [.v d]
  | .vgath _ d _ _ _ => [.v d]
  | .fetchadd _ d _ _ _ => [.s d]
  | .swap _ d _ _ _ => [.s d]
  | .fetchmin _ d _ _ _ => [.s d]
  | .fetchmax _ d _ _ _ => [.s d]
  | .cas _ d _ _ _ => [.s d]
  | .ldacq _ d _ _ => [.s d]
  | .fbind _ d _ => [.e d]
  | .funbind _ d => [.e d]
  | .fflush _ d => [.e d]
  | .fstat _ d _ => [.s d]
  | .mmaW0 _ d a _ => [.a d, .pop a]
  | .mmaW1 _ d a _ => [.a d, .pop a]
  | .mmasW0 _ d a _ => [.a d, .pop a, .pop (a + 1)]
  | .mmasW1 _ d a _ => [.a d, .pop a, .pop (a + 1)]
  | .wldW0 _ a _ => [.bank false, .pop a]
  | .wldW1 _ a _ => [.bank true, .pop a]
  | .scl _ _ => [.latches]
  | .acol _ d _ _ => [.a d]
  | .azero _ d _ => [.a d]
  | .anorm _ d _ => [.a d]
  | .aexp _ d _ => [.a d]
  | .awrite _ d _ _ => [.a d]
  | .awriteAdd _ d _ _ => [.a d]
  | .astat _ d _ => [.s d]
  | .aread _ d _ _ _ => [.v d]
  | .snapr _ d _ _ => [.s d]
  | .ctxsv _ d _ _ => [.s d]
  | .ctxld _ d _ _ => [.s d]
  | .ldt _ d _ _ w => if w = .vector then [.v d] else [.s d]
  | _ => []

/-- The unit an instruction uses (R59, R63). -/
def unitOf : Instr → UnitKind
  | .add _ _ _ _ => .salu
  | .sub _ _ _ _ => .salu
  | .and _ _ _ _ => .salu
  | .or _ _ _ _ => .salu
  | .xor _ _ _ _ => .salu
  | .andn _ _ _ _ => .salu
  | .shl _ _ _ _ => .salu
  | .shr _ _ _ _ => .salu
  | .sar _ _ _ _ => .salu
  | .rotr _ _ _ _ => .salu
  | .min _ _ _ _ => .salu
  | .max _ _ _ _ => .salu
  | .minn _ _ _ _ => .salu
  | .maxn _ _ _ _ => .salu
  | .seq _ _ _ _ => .salu
  | .sne _ _ _ _ => .salu
  | .slt _ _ _ _ => .salu
  | .sltn _ _ _ _ => .salu
  | .sel _ _ _ _ => .salu
  | .clz _ _ _ => .salu
  | .ctz _ _ _ => .salu
  | .popc _ _ _ => .salu
  | .padd _ _ _ _ => .salu
  | .mul _ _ _ _ => .smul
  | .mulh _ _ _ _ => .smul
  | .mulhn _ _ _ _ => .smul
  | .div _ _ _ _ => .smul
  | .divn _ _ _ _ => .smul
  | .rem _ _ _ _ => .smul
  | .remn _ _ _ _ => .smul
  | .addi _ _ _ _ => .salu
  | .andi _ _ _ _ => .salu
  | .ori _ _ _ _ => .salu
  | .xori _ _ _ _ => .salu
  | .shli _ _ _ _ => .salu
  | .shri _ _ _ _ => .salu
  | .sari _ _ _ _ => .salu
  | .slti _ _ _ _ => .salu
  | .sltni _ _ _ _ => .salu
  | .li _ _ _ => .salu
  | .csrr _ _ _ => .salu
  | .csrw _ _ _ => .salu
  | .csrs _ _ _ => .salu
  | .csrc _ _ _ => .salu
  | .br _ _ => .control
  | .jal _ _ => .control
  | .jalr _ _ _ _ => .control
  | .loop _ _ _ => .control
  | .loopi _ _ _ => .control
  | .lidx _ _ _ => .control
  | .lbrk _ => .control
  | .lnext _ => .control
  | .ldepth _ _ => .control
  | .nop _ => .control
  | .yield _ => .control
  | .endAct _ => .control
  | .brk _ => .control
  | .waitGen _ _ _ => .control
  | .waitRidge _ => .control
  | .waitEq _ _ _ => .control
  | .waitGe _ _ _ => .control
  | .waitFeed _ _ => .control
  | .trap _ _ => .control
  | .clkon _ _ _ => .clock
  | .clkoff _ _ _ => .clock
  | .clksplit _ _ _ => .clock
  | .clkq _ _ _ => .clock
  | .clkundef _ _ => .clock
  | .whenScalar _ _ _ => .salu
  | .whenVector _ _ _ => .vector
  | .currScalar _ _ _ => .salu
  | .currVector _ _ _ => .vector
  | .mergeScalar _ _ _ _ => .salu
  | .mergeVector _ _ _ _ => .vector
  | .vadd _ _ _ _ _ _ => .vector
  | .vsub _ _ _ _ _ _ => .vector
  | .vmul _ _ _ _ _ _ => .vector
  | .vfma _ _ _ _ _ _ => .vector
  | .vfms _ _ _ _ _ _ => .vector
  | .vfnma _ _ _ _ _ _ => .vector
  | .vdiv _ _ _ _ _ _ => .vdiv
  | .vsqrt _ _ _ _ _ => .vdiv
  | .vminmax _ _ _ _ _ _ => .vector
  | .vcmp _ _ _ _ _ _ => .vector
  | .vcvt _ _ _ _ _ _ => .vector
  | .vbitAnd _ _ _ _ => .vector
  | .vbitOr _ _ _ _ => .vector
  | .vbitXor _ _ _ _ => .vector
  | .vbitAndn _ _ _ _ => .vector
  | .vbitNot _ _ _ => .vector
  | .vshiftShl _ _ _ _ _ => .vector
  | .vshiftShr _ _ _ _ _ => .vector
  | .vshiftSar _ _ _ _ _ => .vector
  | .vshiftRotr _ _ _ _ _ => .vector
  | .vunaryAbs _ _ _ _ => .vector
  | .vunaryNeg _ _ _ _ => .vector
  | .vunaryClass _ _ _ _ => .vector
  | .vunaryGetexp _ _ _ _ => .vector
  | .vunaryClz _ _ _ _ => .vector
  | .vunaryPopc _ _ _ _ => .vector
  | .vunaryRcpe _ _ _ _ => .vector
  | .vunaryRsqe _ _ _ _ => .vector
  | .vscalb _ _ _ _ _ _ => .vector
  | .vsel _ _ _ _ _ => .vector
  | .vbcast _ _ _ _ => .vector
  | .vext _ _ _ _ _ => .vector
  | .vins _ _ _ _ _ => .vector
  | .vperm _ _ _ _ _ => .vector
  | .vslideup _ _ _ _ _ => .vector
  | .vslidedn _ _ _ _ _ => .vector
  | .viota _ _ _ => .vector
  | .vredSum _ _ _ _ _ => .vector
  | .vredMin _ _ _ _ _ => .vector
  | .vredMax _ _ _ _ _ => .vector
  | .vredFsumx _ _ _ _ _ => .vector
  | .vredScan _ _ _ _ _ => .vector
  | .vredAnd _ _ _ _ => .vector
  | .vredOr _ _ _ _ => .vector
  | .vredXor _ _ _ _ => .vector
  | .vxaccP32 _ _ _ _ => .vector
  | .vxaccS32 _ _ _ => .vector
  | .vxaccP64 _ _ _ _ => .vector
  | .vxaccS64 _ _ _ => .vector
  | .xinit _ _ _ => .vector
  | .xadd _ _ _ _ => .vector
  | .xexpp _ _ _ _ => .vector
  | .xexps _ _ _ => .vector
  | .spawn _ _ _ _ => .engine
  | .spawnc _ _ _ _ => .engine
  | .launch _ _ _ _ => .engine
  | .resolve _ _ _ => .engine
  | .resolven _ _ _ => .engine
  | .ld _ _ _ _ _ => .memory
  | .st _ _ _ _ _ => .memory
  | .vld _ _ _ _ => .memory
  | .vldFeedPop _ _ _ => .memory
  | .vst _ _ _ _ => .memory
  | .vstFeedPush _ _ _ => .memory
  | .fbyScalar _ _ _ _ => .memory
  | .fbyVector _ _ _ _ => .memory
  | .vlds _ _ _ _ _ => .memory
  | .vsts _ _ _ _ _ => .memory
  | .vgath _ _ _ _ _ => .memory
  | .vscat _ _ _ _ _ => .memory
  | .atomAdd _ _ _ _ => .memory
  | .atomMin _ _ _ _ => .memory
  | .atomMax _ _ _ _ => .memory
  | .atomMinn _ _ _ _ => .memory
  | .atomMaxn _ _ _ _ => .memory
  | .atomAnd _ _ _ _ => .memory
  | .atomOr _ _ _ _ => .memory
  | .atomXor _ _ _ _ => .memory
  | .xadd32 _ _ _ => .memory
  | .fetchadd _ _ _ _ _ => .memory
  | .swap _ _ _ _ _ => .memory
  | .fetchmin _ _ _ _ _ => .memory
  | .fetchmax _ _ _ _ _ => .memory
  | .cas _ _ _ _ _ => .memory
  | .ldacq _ _ _ _ => .memory
  | .strel _ _ _ _ => .memory
  | .fence _ _ => .memory
  | .cpy _ _ _ => .engine
  | .cpysum _ _ _ _ => .engine
  | .coll _ _ _ _ => .engine
  | .pref _ _ _ => .engine
  | .fbind _ _ _ => .memory
  | .funbind _ _ => .memory
  | .fflush _ _ => .memory
  | .fstat _ _ _ => .memory
  | .mmaW0 _ _ _ _ => .matrix
  | .mmaW1 _ _ _ _ => .matrix
  | .mmasW0 _ _ _ _ => .matrix
  | .mmasW1 _ _ _ _ => .matrix
  | .wldW0 _ _ _ => .matrix
  | .wldW1 _ _ _ => .matrix
  | .scl _ _ => .matrix
  | .acol _ _ _ _ => .matrix
  | .azero _ _ _ => .matrix
  | .anorm _ _ _ => .matrix
  | .aexp _ _ _ => .matrix
  | .awrite _ _ _ _ => .matrix
  | .awriteAdd _ _ _ _ => .matrix
  | .astat _ _ _ => .matrix
  | .aread _ _ _ _ _ => .matrix
  | .rft _ _ _ => .control
  | .kill _ _ _ => .control
  | .snapr _ _ _ _ => .control
  | .snapw _ _ _ _ => .control
  | .ctxsv _ _ _ _ => .control
  | .ctxld _ _ _ _ => .control
  | .ttinv _ _ _ => .control
  | .halt _ => .control
  | .ldt .. => .memory
  | _ => .none

/-! ### Immediates (R56) -/

/-- The immediate of a slot: IMM11 alone, or under one or two X slots, as an integer (R56). -/
def immOf (s : State) (imm : BitVec 11) : Int :=
  match s.iss.ext with
  | [] => sextInt 11 imm.toNat
  | [p] => sextInt 32 (p.toNat * 2 ^ 11 + imm.toNat)
  | p1 :: p2 :: _ => sextInt 53 (p1.toNat * 2 ^ 32 + p2.toNat * 2 ^ 11 + imm.toNat)

/-- The immediate as a register value. -/
def immWord (s : State) (imm : BitVec 11) : Word := wordOfInt (immOf s imm)

/-- Whether a slot accepts literal extension (R57). -/
def acceptsExt : Instr → Bool
  | .addi .. | .andi .. | .ori .. | .xori .. | .slti .. | .sltni .. | .li .. | .jalr .. | .trap .. => true
  | _ => false

/-! ### The structural checks of issue -/

/-- The word of the slot in issue. -/
def slotWord (s : State) : Nat := (s.iss.words.getD s.iss.slot 0).toNat

/-- A clock of the activation as it stood before the bundle (R18). -/
def clockOfAct (a : Act) (k : Fin 14) : Clock := a.clocks[k.val]

/-- The tag of a source as it stood before the bundle. -/
def srcTag (s : State) : Src → Tag
  | .s r => tagS s.act0 r
  | .v r => tagV s.act0 r
  | .e r => s.act0.eTag[r.val]
  | .a r => match s.act0.place with
    | some p => (getCore s.dev0 p.core).tiles[r.val].tag
    | none => tagStale

/-- Whether a tag fits clock `n`: `n` itself or universal (R15). -/
def tagFits (n : Nat) (t : Tag) : Bool := t.toNat = n || t = tagUniversal

/-- The first source that does not fit clock `n`. -/
def firstMisfit (s : State) (n : Nat) (l : List Src) : Option Tag := (l.map (srcTag s)).find? fun t => !tagFits n t

/-- The common tag X of R17: the first source's tag from 0 to 13, or 0 (log 63). -/
def commonTag (s : State) (l : List Src) : Nat :=
  match (l.map (srcTag s)).find? fun t => decide (t.toNat < 14) with
  | some t => t.toNat
  | none => 0

/-- Whether a qualifier holds for the innermost level (R30). -/
def qualifies (a : Act) : KSel → Bool
  | .clk _ => true
  | .first => match a.loops with | l :: _ => l.index = 0 | [] => false
  | .last => match a.loops with | l :: _ => l.index + 1 = l.count | [] => false

/-- CLKF's TINFO (R137). -/
def clkfInfo (s : State) (reason tag : Nat) : Nat := reason * 2 ^ 37 + tag * 2 ^ 32 + slotWord s

/-- CLKU's TINFO (R137). -/
def clkuInfo (s : State) (n : Nat) : Nat := n * 2 ^ 32 + slotWord s

/-- Whether `k` is a descendant of `anc` through defined clocks (R126). -/
def descends (a : Act) (anc : Nat) : Nat → Nat → Bool
  | 0, _ => false
  | fuel + 1, k =>
    if h : k < 14 then
      let c := a.clocks[k]
      if k = 0 || !c.defd then false
      else c.parent.val = anc || descends a anc fuel c.parent.val
    else false

/-- What the issue checks give: a trap, or the tag of results and whether the slot takes effect. -/
inductive Checked where
  | trap (code info : Nat)
  | go (tag : Tag) (present : Bool)
  deriving DecidableEq, Repr

/-- The check of R15 and R17 over the sources `l`; it holds against the row of R169 that contradicts R15 (log 65). -/
def checkTags (s : State) (k : KSel) (l : List Src) : Checked :=
  match k with
  | .clk n =>
    let c := clockOfAct s.act0 n
    if !c.defd then .trap codeCLKU (clkuInfo s n.val)
    else match firstMisfit s n.val l with
      | some t => .trap codeCLKF (clkfInfo s 1 t.toNat)
      | none => .go (BitVec.ofNat 5 n.val) c.pres
  | q =>
    let x := commonTag s l
    match firstMisfit s x l with
    | some t => .trap codeCLKF (clkfInfo s 1 t.toNat)
    | none => .go (BitVec.ofNat 5 x) ((if h : x < 14 then (s.act0.clocks[x]).pres else false) && qualifies s.act0 q)

/-- The check of WHEN and CURR: `ok` is the relation their source's tag must meet (R133-R135). -/
def checkMove (s : State) (k : KSel) (a : Src) (ok : Fin 14 → Tag → Bool) : Checked :=
  match k with
  | .clk n =>
    let c := clockOfAct s.act0 n
    if !c.defd then .trap codeCLKU (clkuInfo s n.val)
    else if ok n (srcTag s a) then .go (BitVec.ofNat 5 n.val) c.pres
    else .trap codeCLKF (clkfInfo s 2 (srcTag s a).toNat)
  | _ => checkTags s k [a]

/-- WHEN: the tag of K's parent, or universal (R134). -/
def whenOk (s : State) (n : Fin 14) (t : Tag) : Bool :=
  t.toNat = (clockOfAct s.act0 n).parent.val || t = tagUniversal

/-- CURR: tag K, a descendant of K, or universal (R135). -/
def currOk (s : State) (n : Fin 14) (t : Tag) : Bool :=
  t.toNat = n.val || t = tagUniversal || descends s.act0 n.val 14 t.toNat

/-- The pair a MERGE works on: the first half's number, from the sources' tags (R136). -/
def mergePair (ta tb : Tag) : Option Nat :=
  if 1 ≤ ta.toNat && ta.toNat ≤ 12 then some ta.toNat
  else if 2 ≤ tb.toNat && tb.toNat ≤ 13 then some (tb.toNat - 1)
  else none

/-- The check of MERGE (R136, R137): reason 2 with the tag that failed. -/
def checkMerge (s : State) (k : KSel) (a b : Src) : Checked :=
  match k with
  | .clk n =>
    let c := clockOfAct s.act0 n
    let ta := srcTag s a
    let tb := srcTag s b
    if !c.defd then .trap codeCLKU (clkuInfo s n.val)
    else match mergePair ta tb with
      | none => .trap codeCLKF (clkfInfo s 2 ta.toNat)
      | some j =>
        if !tagFits j ta then .trap codeCLKF (clkfInfo s 2 ta.toNat)
        else if !tagFits (j + 1) tb then .trap codeCLKF (clkfInfo s 2 tb.toNat)
        else if h : j + 1 < 14 then
          let x := s.act0.clocks[j]
          let y := s.act0.clocks[j + 1]
          if x.defd && y.defd && x.role = 1 && y.role = 2 && x.parent = n && y.parent = n then
            .go (BitVec.ofNat 5 n.val) c.pres
          else .trap codeCLKF (clkfInfo s 2 (if 1 ≤ ta.toNat && ta.toNat ≤ 12 then ta.toNat else tb.toNat))
        else .trap codeCLKF (clkfInfo s 2 ta.toNat)
  | _ => checkTags s k [a, b]

/-- The clocks a CLK slot would define (R128). -/
def definesOf : Instr → List Nat
  | .clkon _ d _ => [d.val]
  | .clkoff _ d _ => [d.val]
  | .clksplit _ d _ => [d.val, d.val + 1]
  | _ => []

/-- The clock being defined of which K is a descendant (R128): CLKF reason 3; kD where both are (log 63). -/
def selfAncestor (s : State) (k : KSel) (l : List Nat) : Option Nat :=
  match k with
  | .clk n => l.find? fun j => descends s.act0 j 14 n.val
  | _ => none

/-- Whether the issuer holds the privilege an instruction needs (R36, R380, R394). -/
def privileged (x : Act) : Instr → Bool
  | .csrr _ _ c => isService x || decide (c.val < 0x100)
  | .csrw _ _ c => isService x || decide (c.val < 0x100)
  | .csrs _ _ c => isService x || decide (c.val < 0x100)
  | .csrc _ _ c => isService x || decide (c.val < 0x100)
  | .rft .. => isService x || isHandler x
  | .kill .. => isService x || isHandler x
  | .snapr .. => isService x || isHandler x
  | .snapw .. => isService x || isHandler x
  | .ctxsv .. => isService x
  | .ctxld .. => isService x
  | .ttinv .. => isService x
  | .halt _ => isService x
  | .spawn .. => !isHandler x
  | .spawnc .. => !isHandler x
  | .resolve .. => !isHandler x
  | .resolven .. => !isHandler x
  | _ => true

/-- CLKU and CLKF of one slot, whatever its clock's presence (R15-R17, R128, R130, R133-R136); a CLKQ reports K before kA,
and reason 1 stands before reason 3 (log 63). -/
def checkClocks (s : State) (i : Instr) : Checked :=
  match i with
  | .whenScalar k _ a => checkMove s k (.s a) (whenOk s)
  | .whenVector k _ a => checkMove s k (.v a) (whenOk s)
  | .currScalar k _ a => checkMove s k (.s a) (currOk s)
  | .currVector k _ a => checkMove s k (.v a) (currOk s)
  | .mergeScalar k _ a b => checkMerge s k (.s a) (.s b)
  | .mergeVector k _ a b => checkMerge s k (.v a) (.v b)
  | .clkq k _ a =>
    match checkTags s k [] with
    | .trap c x => .trap c x
    | .go t p => if (clockOfAct s.act0 a).defd then .go t p else .trap codeCLKU (clkuInfo s a.val)
  | i =>
    match checkTags s (kOf i) (readsOf i) with
    | .trap c x => .trap c x
    | .go t p => match selfAncestor s (kOf i) (definesOf i) with
      | some j => .trap codeCLKF (clkfInfo s 3 j)
      | none => .go t p

/-- Whether a steward slot has no such instruction: an MTX, ACC, AREAD or FEED member (R426), or a CSR that
nothing assigns at 0x102 or above (R63). -/
def undefHere (a : Act) (i : Instr) : Bool :=
  isService a &&
    match i with
    | .fbind .. | .funbind .. | .fflush .. | .fstat .. => true
    | .csrr _ _ c | .csrw _ _ c | .csrs _ _ c | .csrc _ _ c => decide (0x102 ≤ c.val)
    | i => unitOf i = .matrix

/-- The structural checks of one slot: an instruction the slot does not have (UNDEF), CLKU, CLKF, then PRIV
(R370 steps 2 and 5, R374). -/
def structural (s : State) (i : Instr) : Checked :=
  if undefHere s.act0 i then .trap codeUNDEF (slotWord s)
  else match checkClocks s i with
    | .trap c x => .trap c x
    | .go t p => if privileged s.act0 i then .go t p else .trap codePRIV (slotWord s)

/-- The registers a slot reads or writes, as destinations of results (R26). -/
def touches (i : Instr) : List Dest :=
  ((readsOf i).filterMap fun r => match r with | .s x => some (Dest.s x) | .v x => some (Dest.v x) | _ => none)
    ++ ((writesOf i).filterMap fun r => match r with | .s x => some (Dest.s x) | .v x => some (Dest.v x) | _ => none)

/-- Whether a slot reads or writes a register that awaits an interlocked result (R26); s0 is none. -/
def awaited (x : Act) (i : Instr) : Bool :=
  (touches i).any fun d => d != .s 0 && x.pend.any fun p => p.dest = d

/-- The issue of one slot: its structural checks, its presence, the interlock, then its own effect with the tag
of its results (R15-R17, R26, R370). -/
def issue (i : Instr) (s : State) (body : Tag → State → State) : Host.Outcome State Fault Refusal :=
  match structural s i with
  | .trap code info => .next (slotTrap s code 0 info)
  | .go tag present =>
    if !present then .next s
    else if awaited s.act0 i then .next (stall s)
    else .next (body tag s)

end Sys2Proof.Machine
end

