-- ==== Sys2Proof/Machine/Flags.lean ====
section
/-! DEFINITION. FPC: rounding mode, flags and trap enables (R37, R38, R84, R85), and the results of the
instructions that set flags. -/
namespace Sys2Proof.Machine

/-- The rounding mode a slot uses: its code, or FPC.RM as it stood before the bundle (R38, R62). -/
def fpMode (s : State) (r : Rnd) : Mode := modeOf (s.act0.fpc.toNat % 8) r

/-- The trap enables in the order of `flagsNat`: FPC[12:8] (R37). -/
def enables (a : Act) : Nat := a.fpc.toNat / 256 % 32

/-- Whether flags include an enabled one (R85). -/
def trapsOn (en : Nat) (f : Flags) : Bool := Nat.land (flagsNat f) en != 0

/-- All flags of a list of lane results (R84). -/
def allFlags (l : List FRes) : Flags := l.foldl (fun f x => orFlags f x.2) noFlags

/-- The lowest lane whose result raised an enabled flag, counted from `i`. -/
def firstTrapping (en : Nat) : List FRes → Nat → Option Nat
  | [], _ => none
  | x :: rest, i => if trapsOn en x.2 then some i else firstTrapping en rest (i + 1)

/-- The bundle's slots set flags; they reach FPC when the bundle commits (R38, R84). -/
def addFlags (s : State) (f : Flags) : State :=
  { s with iss := { s.iss with flags := Nat.lor s.iss.flags (flagsNat f) } }

/-- FPX, or the slot's own effect with the flags recorded (R84, R85): `lanes` are the processed lanes' results,
`base` the destination lane of the first. -/
def withFlags (s : State) (lanes : List FRes) (base : Nat) (eff : State → State) : State :=
  match firstTrapping (enables s.act0) lanes base with
  | some l => slotTrap s codeFPX 0 (flagsNat (allFlags lanes) + 256 * l)
  | none => eff (addFlags s (allFlags lanes))

/-- FPC after a write of `x`: its RW fields, an RM of 000 or 111 leaving RM as it is (R37, R102). -/
def fpcWrite (old x : Word) : Word :=
  let rm := x.toNat % 8
  let keep := if rm = 0 || rm = 7 then old.toNat % 8 else rm
  BitVec.ofNat 64 (x.toNat / 8 % 1024 * 8 + keep)

/-- FPC with a committed bundle's flags ORed in (R38). -/
def fpcOrFlags (fpc : Word) (flags : Nat) : Word := fpc ||| BitVec.ofNat 64 (flags % 32 * 8)

end Sys2Proof.Machine
end

