-- ==== Sys2Proof/Machine/Clock.lean ====
section
/-! DEFINITION. Clocks: CLKON to CLKUNDEF, WHEN, CURR, MERGE (R18, R19, R125-R136). -/
namespace Sys2Proof.Machine

/-- A clock by number; k0 for a number that names none. -/
def clockAt (cs : Vector Clock 14) (j : Nat) : Clock := if h : j < 14 then cs[j] else Clock.base

/-- Replace a clock; k0 and numbers that name none stay (R125). -/
def setClock (cs : Vector Clock 14) (j : Nat) (c : Clock) : Vector Clock 14 :=
  if h : j < 14 then (if j = 0 then cs else cs.set j c h) else cs

/-- The partner of a half of a split pair takes ROLE 00 (R128, R129). -/
def dropPartner (cs : Vector Clock 14) (j : Nat) : Vector Clock 14 :=
  match (clockAt cs j).role.val with
  | 1 => setClock cs (j + 1) { clockAt cs (j + 1) with role := 0 }
  | 2 => setClock cs (j - 1) { clockAt cs (j - 1) with role := 0 }
  | _ => cs

/-- Free one clock: DEF, PRES and ROLE clear (R129). -/
def freeClock (cs : Vector Clock 14) (j : Nat) : Vector Clock 14 :=
  setClock (dropPartner cs j) j { clockAt cs j with defd := false, role := 0, pres := false }

/-- The descendants of a clock (R126). -/
def descendantsOf (a : Act) (j : Nat) : List Nat := (List.range 14).filter fun x => descends a j 14 x

/-- The clocks numbered in a list, as tags name them. -/
def clockNumbers (l : List Nat) : List (Fin 14) := l.filterMap fun j => if h : j < 14 then some ⟨j, h⟩ else none

/-- Values on the clocks `l` become stale: registers, feeds, tiles, results in flight and results that the bundle
still issues (R19, R320). -/
def staleClocks (l : List Nat) (s : State) : State :=
  let ks := clockNumbers l
  let s1 := markTiles ks { s with act := markStale ks s.act }
  { s1 with iss := { s1.iss with freed := s1.iss.freed ++ ks } }

/-- Define the clocks `js` with the roles and presences given, children of K (R128). -/
def defineClocks (s : State) (n : Fin 14) (js : List (Nat × Fin 4 × Bool)) : State :=
  let gone := js.flatMap fun j => descendantsOf s.act0 j.1
  let cs := gone.foldl freeClock s.act.clocks
  let cs := js.foldl (fun cs j => dropPartner cs j.1) cs
  let cs := js.foldl (fun cs j => setClock cs j.1 { defd := true, parent := n, role := j.2.1, pres := j.2.2 }) cs
  staleClocks (js.map (·.1) ++ gone) { s with act := { s.act with clocks := cs } }

/-- The clock of a slot on a clock; a qualifier has none. -/
def clockOfK : KSel → Fin 14
  | .clk n => n
  | _ => 0

/-- CLKON (R127, R128). -/
def execClkon (k : KSel) (d : CReg) (a : SReg) (s : State) : Host.Outcome State Fault Refusal :=
  issue (.clkon k d a) s fun _ s => defineClocks s (clockOfK k) [(d.val, 0, readS s.act0 a != 0)]

/-- CLKOFF (R127, R128). -/
def execClkoff (k : KSel) (d : CReg) (a : SReg) (s : State) : Host.Outcome State Fault Refusal :=
  issue (.clkoff k d a) s fun _ s => defineClocks s (clockOfK k) [(d.val, 0, readS s.act0 a == 0)]

/-- CLKSPLIT (R127, R128). -/
def execClksplit (k : KSel) (d : CReg) (a : SReg) (s : State) : Host.Outcome State Fault Refusal :=
  issue (.clksplit k d a) s fun _ s =>
    let c := readS s.act0 a != 0
    defineClocks s (clockOfK k) [(d.val, 1, c), (d.val + 1, 2, !c)]

/-- CLKQ (R130). -/
def execClkq (k : KSel) (d : SReg) (a : CReg) (s : State) : Host.Outcome State Fault Refusal :=
  issue (.clkq k d a) s fun t s => resultS s d (if s.act0.clocks[a.val].pres then 1 else 0) 1 t

/-- CLKUNDEF: no effect on an undefined clock (R129). -/
def execClkundef (k : KSel) (d : CReg) (s : State) : Host.Outcome State Fault Refusal :=
  issue (.clkundef k d) s fun _ s =>
    if s.act0.clocks[d.val].defd then
      let gone := d.val :: descendantsOf s.act0 d.val
      staleClocks gone { s with act := { s.act with clocks := gone.foldl freeClock s.act.clocks } }
    else s

/-- WHEN, scalar (R133, R134). -/
def execWhenScalar (k : KSel) (d a : SReg) (s : State) : Host.Outcome State Fault Refusal :=
  issue (.whenScalar k d a) s fun t s => resultS s d (readS s.act0 a) 1 t

/-- WHEN, vector (R133, R134). -/
def execWhenVector (k : KSel) (d a : VReg) (s : State) : Host.Outcome State Fault Refusal :=
  issue (.whenVector k d a) s fun t s => resultV s d (readV s.act0 a) 2 t

/-- CURR, scalar (R133, R135). -/
def execCurrScalar (k : KSel) (d a : SReg) (s : State) : Host.Outcome State Fault Refusal :=
  issue (.currScalar k d a) s fun t s => resultS s d (readS s.act0 a) 1 t

/-- CURR, vector (R133, R135). -/
def execCurrVector (k : KSel) (d a : VReg) (s : State) : Host.Outcome State Fault Refusal :=
  issue (.currVector k d a) s fun t s => resultV s d (readV s.act0 a) 2 t

/-- Whether the first half of a MERGE's pair is present (R136). -/
def mergeFirst (s : State) (ta tb : Tag) : Bool :=
  match mergePair ta tb with
  | some j => (clockAt s.act0.clocks j).pres
  | none => false

/-- MERGE, scalar (R133, R136). -/
def execMergeScalar (k : KSel) (d a b : SReg) (s : State) : Host.Outcome State Fault Refusal :=
  issue (.mergeScalar k d a b) s fun t s =>
    resultS s d (if mergeFirst s (tagS s.act0 a) (tagS s.act0 b) then readS s.act0 a else readS s.act0 b) 1 t

/-- MERGE, vector (R133, R136). -/
def execMergeVector (k : KSel) (d a b : VReg) (s : State) : Host.Outcome State Fault Refusal :=
  issue (.mergeVector k d a b) s fun t s =>
    resultV s d (if mergeFirst s (tagV s.act0 a) (tagV s.act0 b) then readV s.act0 a else readV s.act0 b) 2 t

end Sys2Proof.Machine
end

