-- ==== Sys2Proof/Machine/Csr.lean ====
section
/-! DEFINITION. Control and status registers (R20, R36-R40, R102, R103, R196, R373, R404). -/
namespace Sys2Proof.Machine

/-- The state as it stood before the bundle (R103). -/
def before (s : State) : State := { s with act := s.act0, dev := s.dev0 }

/-- CLKSTAT (R20). -/
def clkstat (a : Act) : Nat :=
  (List.range 14).foldl (fun n i =>
    if h : i < 14 then
      n + (if a.clocks[i].defd then 2 ^ i else 0) + (if a.clocks[i].defd && a.clocks[i].pres then 2 ^ (16 + i) else 0)
    else n) 0

/-- STATUS (R39, R178, R426): a steward slot reads 0x80 plus its number as CORE. -/
def statusCsr (s : State) (a : Act) : Nat :=
  let c := match a.place with | some p => if p.core < 32 then p.core else 0x80 + (p.core - 32) | none => 0
  let k := match a.place with | some p => p.slot | none => 0
  c * 256 + k * 16 + (if atRidge s a then 2 else 0) + (if speculative s a then 1 else 0)

/-- LSTK: count or index of level `l` counted from the outermost; 0 for an inactive level (R36). -/
def lstk (a : Act) (n : Nat) : Word :=
  match a.loops.reverse.drop (n / 2) with
  | l :: _ => if n % 2 = 0 then l.count else l.index
  | [] => 0

/-- The value of a CSR (R36, R196, R373, R404). -/
def csrValue (s : State) (a : Act) (n : Nat) : Word :=
  if n = 0x000 then a.fpc
  else if n = 0x001 then BitVec.ofNat 64 (statusCsr s a)
  else if n = 0x002 then a.vpart
  else if n = 0x010 then BitVec.ofNat 64 a.stamp.inst
  else if n = 0x011 then BitVec.ofNat 64 a.stamp.task
  else if n = 0x012 then BitVec.ofNat 64 a.stamp.index
  else if n = 0x013 then BitVec.ofNat 64 a.seq.toNat
  else if n = 0x014 then BitVec.ofNat 64 (actLike s a)
  else if n = 0x015 then BitVec.ofNat 64 (match actRun s a with | some r => ridgeInstant s r | none => a.stamp.inst)
  else if n = 0x016 then BitVec.ofNat 64 (match actRun s a with | some r => r.reach | none => 0)
  else if n = 0x017 then a.weight
  else if 0x020 ≤ n && n ≤ 0x02B then lstk a (n - 0x020)
  else if n = 0x030 then BitVec.ofNat 64 (clkstat a)
  else if n = 0x040 then a.trap.cause
  else if n = 0x041 then a.trap.pc
  else if n = 0x042 then a.trap.addr
  else if n = 0x043 then a.trap.stamp
  else if n = 0x044 then a.trap.info
  else if n = 0x100 then s.dev.pwake
  else if n = 0x101 then a.preemptCsr
  else 0

/-- Send a pre-emption request to a slot (R385, R404, R405); false when it holds no activation. -/
def requestPreempt (s : State) (core slot : Nat) : State × Bool :=
  match (acts s).find? (fun a => match a.place with | some p => p.core = core && p.slot = slot | none => false) with
  | some a =>
    if (runOfKey a.key).isSome && (match a.status with | .ended => false | .retired => false | _ => true) then
      (putAct s { a with preempt := true, sinceRequest := if a.preempt then a.sinceRequest else 0 }, true)
    else (s, false)
  | none => (s, false)

/-- REQ of a value of PREEMPT (R404). -/
def preemptReq (x : Word) : Bool := x.toNat / 65536 % 2 = 1

/-- A write of PREEMPT: ignored while REQ reads 1, by CSRW, CSRS or CSRC (R405, log 75); a REQ it sets sends the request when its
bundle commits (R103, R404). -/
def writePreempt (s : State) (x : Word) : State :=
  if preemptReq s.act.preemptCsr then s
  else
    let fields := x.toNat / 256 % 256 * 256 + x.toNat % 8 + if preemptReq x then 65536 else 0
    { s with act := { s.act with preemptCsr := BitVec.ofNat 64 fields } }

/-- The request of a REQ that the committed bundle has set goes out; it is dropped at once, and REQ reads 0, where the slot holds no
activation or CORE names no compute core (R404, R405, log 75). -/
def sendRequest (s : State) : State :=
  if preemptReq s.act.preemptCsr && !preemptReq s.act0.preemptCsr then
    let x := s.act.preemptCsr.toNat
    let (s1, sent) := requestPreempt s (x / 256 % 256) (x % 8)
    if sent then s1 else { s1 with act := { s1.act with preemptCsr := BitVec.ofNat 64 (x % 65536) } }
  else s

/-- What the CSR writes of a committed bundle do beyond its slot (R103); END discards them (R116). -/
def settleCsrs (s : State) : State :=
  match s.iss.ctl with
  | .endAct => { s with dev := { s.dev with pwake := s.dev0.pwake } }
  | _ => sendRequest s

/-- Write a CSR in its RW fields (R37, R40, R102, R196, R404); read-only numbers never come here (R36). -/
def writeCsr (s : State) (n : Nat) (x : Word) : State :=
  if n = 0x000 then { s with act := { s.act with fpc := fpcWrite s.act0.fpc x } }
  else if n = 0x002 then { s with act := { s.act with vpart := BitVec.ofNat 64 (x.toNat % 8) } }
  else if n = 0x100 then { s with dev := { s.dev with pwake := BitVec.ofNat 64 (x.toNat % 65536) } }
  else if n = 0x101 then writePreempt s x
  else s

/-- CSRR: latency 1 (R102, R103). -/
def execCsrr (k : KSel) (d : SReg) (c : Fin 2048) (s : State) : Host.Outcome State Fault Refusal :=
  issue (.csrr k d c) s fun t s => resultS s d (csrValue (before s) s.act0 c.val) 1 t

/-- CSRW (R102, R103). -/
def execCsrw (k : KSel) (a : SReg) (c : Fin 2048) (s : State) : Host.Outcome State Fault Refusal :=
  issue (.csrw k a c) s fun _ s => writeCsr s c.val (readS s.act0 a)

/-- CSRS (R102, R103). -/
def execCsrs (k : KSel) (a : SReg) (c : Fin 2048) (s : State) : Host.Outcome State Fault Refusal :=
  issue (.csrs k a c) s fun _ s => writeCsr s c.val (csrValue (before s) s.act0 c.val ||| readS s.act0 a)

/-- CSRC (R102, R103). -/
def execCsrc (k : KSel) (a : SReg) (c : Fin 2048) (s : State) : Host.Outcome State Fault Refusal :=
  issue (.csrc k a c) s fun _ s => writeCsr s c.val (csrValue (before s) s.act0 c.val &&& ~~~(readS s.act0 a))

end Sys2Proof.Machine
end

