-- ==== Sys2Proof/Machine/Access.lean ====
section
/-! DEFINITION. Generic pointers and memory accesses (R41-R44, R230-R243, R252-R255, R265-R271, R280, R442):
where a pointer leads, which trap it meets, and loads and stores in each window and ORDER mode. -/
namespace Sys2Proof.Machine

/-- A trap met by an access: code, TADDR, TINFO. -/
structure Trapped where
  code : Nat
  addr : Nat
  info : Nat
  deriving DecidableEq, Repr

/-- How the bytes behind a pointer behave (R280). -/
inductive MemMode where
  | scratch | ordered | staged | live
  deriving DecidableEq, Repr

/-- Where an access lands: mode, device address, the promised latency class of the tile (R238). -/
structure Located where
  mode : MemMode
  addr : Nat
  lc : Nat
  deriving DecidableEq, Repr

/-- The kinds of access that the ORDER modes tell apart (R240, R280, R285, R291-R295, R315, R328). -/
inductive AccKind where
  | load | store | fby | atom | atomr | liveOnly | timed | feed
  deriving DecidableEq, Repr

/-- Whether an access counts as a write (R442). -/
def isWrite : AccKind → Bool → Bool
  | .load, w => w
  | .store, _ => true
  | .fby, _ => true
  | .atom, _ => true
  | .atomr, _ => true
  | .liveOnly, w => w
  | .timed, _ => false
  | .feed, w => w

/-- Whether a mode admits a kind of access. -/
def modeAdmits : MemMode → AccKind → Bool
  | .scratch, k => k != .liveOnly && k != .fby
  | .ordered, k => k != .liveOnly && k != .timed && k != .feed
  | .staged, k => k != .liveOnly && k != .atomr && k != .fby
  | .live, k => k != .fby && k != .timed && k != .feed

/-- The mode of an ORDER (R233). -/
def modeOfOrder : Order → MemMode
  | .ordered => .ordered | .staged => .staged | .live => .live

/-- Whether a task may read (`w = false`) or write a tensor (R240, R442). -/
def taskMay (t : Tensor) (task : Nat) (w : Bool) : Bool :=
  match t.readers, t.writers with
  | none, none => t.order != .staged
  | rs, ws =>
    (match ws with | some l => l.contains task | none => false)
      || (!w && match rs with | some l => l.contains task | none => false)

/-- The scratch extent of an activation (R227, R426). -/
def scratchExtent (s : State) (a : Act) : Nat :=
  match actRun s a with
  | some r => taskBanks r.image a.task * bankBytes
  | none => 524288

/-- The device address of a scratch offset. -/
def scratchAddr (a : Act) (off : Nat) : Nat :=
  match a.place with
  | some p =>
    if p.core < 32 then bankAddr p.core (p.banks.getD (off / bankBytes) 0) (off % bankBytes)
    else scratchBase p.core + off
  | none => 0

/-- The run's loft window in a vault: its frames in order (R231). -/
def windowFrames (r : Run) (vault : Nat) : List Nat :=
  match r.window.find? (fun w => w.1 = vault) with
  | some w => w.2
  | none => []

/-- WIN of an access (R232). -/
def winTrap (addr lane : Nat) : Trapped := { code := codeWIN, addr := addr, info := lane }

/-- The tensor-window part of `locate` (R232, R237, R442). -/
def locateTensor (s : State) (a : Act) (n size align : Nat) (k : AccKind) (w : Bool) (lane : Nat) :
    Except Trapped Located :=
  let off := n % 2 ^ 44
  match actRun s a with
  | none => .error (winTrap n lane)
  | some r =>
    match imgTensor r.image (n / 2 ^ 44 % 4096) with
    | none => .error (winTrap n lane)
    | some t =>
      if n / 2 ^ 56 % 64 != 0 || t.size < off + size then .error (winTrap n lane)
      else if n % align != 0 then .error { code := codeALIGN, addr := n, info := lane }
      else
        let tile := off / frameBytes
        let e := (r.tables.find? (fun x => x.handle = t.handle)).bind fun x => tileOf x.view tile
        match e with
        | none => .error { code := codeXLAT, addr := n, info := lane + 2 ^ 32 * tile }
        | some e =>
          if t.ntiles ≤ tile || !e.v then .error { code := codeXLAT, addr := n, info := lane + 2 ^ 32 * tile }
          else if (isWrite k w && !e.w) || !taskMay t a.stamp.task (isWrite k w)
              || !modeAdmits (modeOfOrder t.order) k then
            .error { code := codePROT, addr := n, info := lane }
          else .ok { mode := modeOfOrder t.order, addr := frameAddr e.loft e.frame (off % frameBytes), lc := e.lc.toNat }

/-- Where an access of `size` bytes at the exact address `addr` leads, checked for WIN, ALIGN, XLAT and PROT in
this order (R43, R122, R232, R237, R279). `w` says whether a load-like kind also writes. -/
def locate (s : State) (a : Act) (addr : Int) (size align : Nat) (k : AccKind) (w : Bool) (lane : Nat) :
    Except Trapped Located :=
  let n := wrapNat 64 addr
  if addr < 0 || (2 ^ 64 : Nat) ≤ addr then .error (winTrap n lane)
  else if n / 2 ^ 62 = 0 then
    if 2 ^ 21 ≤ n || scratchExtent s a < n + size then .error (winTrap n lane)
    else if n % align != 0 then .error { code := codeALIGN, addr := n, info := lane }
    else if !modeAdmits .scratch k then .error { code := codePROT, addr := n, info := lane }
    else .ok { mode := .scratch, addr := scratchAddr a n, lc := 0 }
  else if n / 2 ^ 62 = 1 then
    let vault := n / 2 ^ 26 % 32
    let off := n % 2 ^ 26
    let frames := match actRun s a with | some r => windowFrames r vault | none => []
    if n / 2 ^ 31 % 2 ^ 31 != 0 || frames.length * frameBytes < off + size then .error (winTrap n lane)
    else if n % align != 0 then .error { code := codeALIGN, addr := n, info := lane }
    else if !modeAdmits .live k then .error { code := codePROT, addr := n, info := lane }
    else .ok { mode := .live, addr := frameAddr true (frames.getD (off / frameBytes) 0) (off % frameBytes), lc := 0 }
  else if n / 2 ^ 62 = 2 then locateTensor s a n size align k w lane
  else .error (winTrap n lane)

/-- MEMX of the slot that reads located bytes with an uncorrectable error (R374, R384). -/
def readError (p : Nat) (l : Located) : Trapped := { code := codeMEMX, addr := p, info := memLevel l.addr }

/-- `locate` for bytes an instruction reads for itself: a command block, a batten, a packet, a context image, the word of a
WAIT. An uncorrectable error in them is MEMX of the slot (R374, R384, log 58). -/
def locateRead (s : State) (a : Act) (addr : Int) (size align : Nat) (k : AccKind) : Except Trapped Located :=
  match locate s a addr size align k false 0 with
  | .ok l => if badIn s.dev l.addr size then .error (readError (wrapNat 64 addr) l) else .ok l
  | .error t => .error t

/-! ### STAGED bytes and their races (R240, R241, R289) -/

/-- Whether another sibling of the stamp's phase has an access of kind `p` to byte `x`. -/
def siblingDid (d : Dev) (run : Nat) (st : Stamp) (p : Nat → Bool) (x : Nat) : Bool :=
  d.staged.any fun q => q.run = run && phaseOf q.stamp = phaseOf st && q.stamp.index != st.index
    && p q.kind && decide (q.lo ≤ x) && decide (x < q.lo + q.len)

/-- Add an access to a list; one that touches or overlaps an access of the same kind and stamp extends it. -/
def addStaged (x : StagedAccess) : List StagedAccess → List StagedAccess
  | [] => [x]
  | q :: rest =>
    if q.run = x.run && q.stamp = x.stamp && q.kind = x.kind && decide (x.lo ≤ q.lo + q.len) && decide (q.lo ≤ x.lo + x.len) then
      let lo := min q.lo x.lo
      { q with lo := lo, len := max (q.lo + q.len) (x.lo + x.len) - lo } :: rest
    else q :: addStaged x rest

/-- Note an access to STAGED bytes. -/
def noteStaged (d : Dev) (run : Nat) (st : Stamp) (lo len kind : Nat) : Dev :=
  { d with staged := addStaged { run := run, stamp := st, lo := lo, len := len, kind := kind } d.staged }

/-- The bytes in `l`, those whose address is raced replaced by free bytes. -/
def freeRaced (raced : Nat → Bool) (a : Nat) (d : Dev) : List Byte → List Byte × Dev
  | [] => ([], d)
  | b :: bs =>
    if raced a then
      let x := Config.freeByte d.free
      let (rest, d1) := freeRaced raced (a + 1) { d with free := d.free + 1 } bs
      (x :: rest, d1)
    else
      let (rest, d1) := freeRaced raced (a + 1) d bs
      (b :: rest, d1)

/-- The raced bytes of `[a, a + n)` become free bytes in memory: whoever reads them later is promised nothing either (R241). -/
def freeMem (raced : Nat → Bool) : Nat → Nat → Dev → Dev
  | _, 0, d => d
  | a, n + 1, d =>
    freeMem raced (a + 1) n
      (if raced a then { d with mem := memWrite d.mem a (Config.freeByte d.free), free := d.free + 1 } else d)

/-- Read STAGED bytes from `m`: of a byte that a sibling of the phase writes nothing is promised, neither here nor in memory
(R241). -/
def readStaged (m : List Host.Cell) (d : Dev) (run : Nat) (st : Stamp) (lo len : Nat) : List Byte × Dev :=
  let raced := siblingDid d run st fun k => decide (1 ≤ k)
  let r := freeRaced raced lo (noteStaged d run st lo len 0) (memReadBytes m lo len)
  (r.1, freeMem raced lo len r.2)

/-- Write STAGED bytes: a byte that a sibling of the phase reads or writes is not promised (R241). -/
def writeStaged (d : Dev) (run : Nat) (st : Stamp) (lo : Nat) (bs : List Byte) : Dev :=
  let (xs, d1) := freeRaced (siblingDid d run st fun _ => true) lo (noteStaged d run st lo bs.length 1) bs
  { d1 with mem := memWriteBytes d1.mem lo xs }

/-! ### Live memory (R242, R243, R268-R270) -/

/-- Perform an ATOM or ATOMR of `w` bits on bytes at `a` (R287-R290). -/
def atomMem (m : List Host.Cell) (a : Nat) (op : AtomOp) (w operand : Nat) : List Host.Cell :=
  match op with
  | .xadd32 =>
    let c := memReadNat m a 32
    memWriteBytes m a (bytesOfNat 16 (xadd32Container c (sextInt 32 (c / 2 ^ 128)) operand))
  | op => memWriteBytes m a (bytesOfNat (w / 8) (atomApply op w (memReadNat m a (w / 8)) operand))

/-- TARGET of an arrival word (R329). -/
def targetOf (m : List Host.Cell) (a : Nat) : Nat := memReadNat m (a + 8) 8 % 2 ^ 48

/-- One update of an arrival word by `n` bytes (R329). -/
def countArrival (m : List Host.Cell) (a n : Nat) : List Host.Cell :=
  let lo := memReadNat m a 8
  let t := targetOf m a
  let c := (lo % 2 ^ 48 + n) % 2 ^ 48
  let g := lo / 2 ^ 48
  let (c1, g1) := if t = 0 then (c, g) else (c % t, (g + c / t) % 65536)
  memWriteBytes m a (bytesOfNat 8 (c1 + 2 ^ 48 * g1))

/-- Write STATUS where it is 0 (R330). -/
def setArrivalStatus (m : List Host.Cell) (a code : Nat) : List Host.Cell :=
  let hi := memReadNat m (a + 8) 8
  if hi / 2 ^ 48 = 0 then memWriteBytes m (a + 8) (bytesOfNat 8 (hi % 2 ^ 48 + 2 ^ 48 * code)) else m

/-- Perform a live operation on a memory (R269). -/
def performOp (m : List Host.Cell) (a : Nat) (op : LiveOp) : List Host.Cell :=
  match op with
  | .store bs => memWriteBytes m a bs
  | .release bs _ => memWriteBytes m a bs
  | .atom op w o => atomMem m a op w o
  | .atomr op w o => atomMem m a op w o
  | .fence _ => m
  | .acquire _ => m
  | .count n => countArrival m a n
  | .status c => setArrivalStatus m a c

/-- The bytes from its address on that a live access may change. -/
def liveSpan : LiveOp → Nat
  | .store bs => bs.length
  | .release bs _ => bs.length
  | .atom .xadd32 _ _ => 32
  | .atom _ w _ => w / 8
  | .atomr _ w _ => w / 8
  | .fence _ => 0
  | .acquire _ => 0
  | .count _ => 16
  | .status _ => 16

/-- Whether a live access touches a word of `[a, a + n)`. -/
def touchesWords (q : LiveReq) (a n : Nat) : Bool :=
  decide (q.addr / 8 * 8 < a + n) && decide (a / 8 * 8 < q.addr + liveSpan q.op)

/-- The live sectors a compute core holds. -/
def coreLines (d : Dev) (core : Nat) : List (Nat × List Byte) := if core < 32 then (getCore d core).l1 else []

/-- Drop a core's live lines: what an acquire at device scope or wider does (R243, R270). -/
def dropLines (d : Dev) (core : Nat) : Dev :=
  if core < 32 then putCore d core { getCore d core with l1 := [], l1Die := [], l1Pref := [] } else d

/-- Drop a core's live lines that miss a store of its die: what an acquire at die scope does (R243, R270). -/
def dropDieLines (d : Dev) (core : Nat) : Dev :=
  if core < 32 then
    let c := getCore d core
    putCore d core { c with l1 := c.l1.filter fun p => !c.l1Die.contains p.1, l1Die := [] }
  else d

/-- An acquire or FENCE at a scope invalidates the core's live lines at that scope (R243, R270). -/
def acquireLines (d : Dev) (core : Nat) (c : Scope) : Dev :=
  match c with
  | .core => d
  | .die => dropDieLines d core
  | _ => dropLines d core

/-- The levels of the parties a scope names: those of a core, those of a die, or all that read at the home (R270). -/
def scopeLevel : Scope → Nat
  | .core => 1
  | .die => 2
  | _ => 3

/-- A core without one of its 64-byte lines (R243). -/
def dropLine (c : Core) (line : Nat) : Core :=
  { c with
    l1 := c.l1.filter fun p => p.1 / 64 * 64 != line
    l1Staged := c.l1Staged.filter fun p => p.1 / 64 * 64 != line
    l1Pref := c.l1Pref.filter fun x => x / 64 * 64 != line }

/-- The lines a core holds in the set of an address: 1,024 sets of 16 ways (R243). -/
def linesOfSet (c : Core) (a : Nat) : List Nat :=
  (((c.l1.map (·.1) ++ c.l1Staged.map (·.1) ++ c.l1Pref).filter fun x => x / 64 % 1024 = a / 64 % 1024).map
    fun x => x / 64 * 64).eraseDups

/-- Whether a core has room for the line of an address without giving up another. -/
def hasWay (c : Core) (a : Nat) : Bool :=
  let ls := linesOfSet c a
  ls.contains (a / 64 * 64) || decide (ls.length < 16)

/-- A core with room for the line of an address: of a full set it gives up the first line (R243). -/
def makeWay (c : Core) (a : Nat) : Core :=
  if hasWay c a then c else dropLine c ((linesOfSet c a).headD 0)

/-- The sectors of `[a, a + n)`. -/
def sectorsOf (a n : Nat) : List Nat := (List.range ((a + n - 1) / 32 + 1 - a / 32)).map fun i => (a / 32 + i) * 32

/-- Fill a live sector the core does not hold from the home (R243). -/
def fillSector (m : List Host.Cell) (c : Core) (x : Nat) : Core :=
  if c.l1.any fun p => p.1 = x then c
  else
    let c1 := makeWay c x
    { c1 with
      l1 := c1.l1 ++ [(x, memReadBytes m x 32)], l1Die := c1.l1Die.filter (· != x), l1Pref := c1.l1Pref.filter (· != x) }

/-- Fill the sectors of `[a, a + n)` that a core does not hold, from the home (R243). -/
def fillLines (d : Dev) (core a n : Nat) : Dev :=
  if core < 32 then putCore d core ((sectorsOf a n).foldl (fillSector d.mem) (getCore d core)) else d

/-- A core that has read (`w = none`) or written a STAGED sector holds it; a written one is owed to its home until the writer
retires (R243). -/
def holdStaged (run : Nat) (w : Option Stamp) (c : Core) (x : Nat) : Core :=
  if c.l1Staged.any fun p => p.1 = x then
    { c with l1Staged := c.l1Staged.map fun p => if p.1 = x && w.isSome then (x, run, w) else p }
  else
    let c1 := makeWay c x
    { c1 with l1Staged := c1.l1Staged ++ [(x, run, w)] }

/-- The STAGED sectors of `[a, a + n)` enter a core's L1 (R243). -/
def holdStagedAt (d : Dev) (core run : Nat) (w : Option Stamp) (a n : Nat) : Dev :=
  if core < 32 then putCore d core ((sectorsOf a n).foldl (holdStaged run w) (getCore d core)) else d

/-- A core's L1 fetches a sector for a PREF where its set has room (R296, log 44). -/
def prefSector (m : MemMode) (run : Nat) (c : Core) (x : Nat) : Core :=
  if !hasWay c x then c
  else match m with
    | .staged => holdStaged run none c x
    | .live => if c.l1Pref.contains x || c.l1.any fun p => p.1 = x then c else { c with l1Pref := c.l1Pref ++ [x] }
    | _ => c

/-- The line of device address `x` is fetched for a PREF. -/
def prefLine (d : Dev) (core run : Nat) (m : MemMode) (x : Nat) : Dev :=
  if core < 32 then putCore d core ((sectorsOf (x / 64 * 64) 64).foldl (prefSector m run) (getCore d core)) else d

/-- Whether the parties of a core may read a live access that is not yet performed at its home (R270). -/
def reaches (core : Nat) (q : LiveReq) : Bool :=
  decide (core < 32) && ((q.reach = 1 && q.core = core) || (q.reach = 2 && dieOf q.core = dieOf core))

/-- Whether a live access counts as performed for every party that a scope names around a core, before it is performed at its home:
at core scope where that core reads it, at die scope where its die does (R270). -/
def performedTo (c : Scope) (core : Nat) (q : LiveReq) : Bool := reaches core q && decide (scopeLevel c ≤ q.reach)

/-- A memory under the live accesses that reach a core. -/
def reachOver (l : List LiveReq) (core : Nat) (m : List Host.Cell) : List Host.Cell :=
  (l.filter (reaches core)).foldl (fun m q => performOp m q.addr q.op) m

/-- A core's view of live memory: the home, under the sectors it holds, under what has reached it (R269). -/
def coreView (lines : List (Nat × List Byte)) (d : Dev) (core : Nat) : List Host.Cell :=
  reachOver d.liveq core (lines.foldl (fun m p => memWriteBytes m p.1 p.2) d.mem)

/-- An activation's live accesses on their way, in issue order; those of one stamp are one activation's (R380). -/
def ownLive (d : Dev) (k : ActKey) : List LiveReq := d.liveq.filter fun q => kin q.who k

/-- Whether an access is a store of a slot: its activation reads it before it is performed (R267, R271). -/
def isOwnStore (q : LiveReq) : Bool :=
  q.unit = .slot && match q.op with | .store _ => true | .release _ _ => true | _ => false

/-- A memory under an activation's own live stores (R267). -/
def ownOver (d : Dev) (k : ActKey) (m : List Host.Cell) : List Host.Cell :=
  ((ownLive d k).filter isOwnStore).foldl (fun m q => performOp m q.addr q.op) m

/-- A memory under an activation's own live stores that come before the operation with this SEQ (R267, R271). -/
def ownBefore (d : Dev) (k : ActKey) (seq : Nat) (m : List Host.Cell) : List Host.Cell :=
  ((ownLive d k).filter fun q => isOwnStore q && decide (q.seq < seq)).foldl (fun m q => performOp m q.addr q.op) m

/-- Whether a FENCE of the activation still waits for its earlier live accesses, or an LDACQ for such a FENCE: later live reads
wait with it (R270). -/
def fenced (d : Dev) (k : ActKey) : Bool :=
  (ownLive d k).any fun q => match q.op with | .fence _ => true | .acquire _ => true | _ => false

/-- Whether a FENCE or LDACQ on its way comes before the activation's operation with this SEQ (R270). -/
def fencedAt (d : Dev) (k : ActKey) (seq : Nat) : Bool :=
  (ownLive d k).any fun q => match q.op with
    | .fence _ => decide (q.seq ≤ seq)
    | .acquire _ => decide (q.seq < seq)
    | _ => false

/-- Whether an activation finds in a word of `[a, a + n)` a store that not every party reads yet: its own before the operation
with this SEQ, or one that has reached its core. -/
def findsNarrow (core : Nat) (k : ActKey) (seq a n : Nat) (q : LiveReq) : Bool :=
  touchesWords q a n && ((kin q.who k && isOwnStore q && decide (q.seq < seq)) || reaches core q)

/-- Whether there is such a store. A read at device scope or wider waits until there is none, since whoever acquires there later must
find the store too (R270). -/
def narrowStore (d : Dev) (core : Nat) (k : ActKey) (seq a n : Nat) : Bool := d.liveq.any (findsNarrow core k seq a n)

/-- Whether a live access is a release at device scope or wider: once an LDACQ has read it, every later LDACQ does (R270). -/
def wideRelease : LiveOp → Bool
  | .release _ c => scopeLevel c = 3
  | _ => false

/-- Whether every live access on its way is read at its home only. -/
def homeOnly (d : Dev) : Bool := d.liveq.all fun q => q.reach = 0

/-- Whether a command of an activation is still in an engine (R271). -/
def engineLeft (d : Dev) (k : ActKey) : Bool :=
  (d.copies.toList.flatten.any fun c => c.who = k) || d.colls.any (fun c => c.who = k)

/-- Whether the slot in issue stands behind a FENCE or LDACQ of its bundle that still waits for accesses of earlier bundles: what it
reads of live memory at issue it then reads only once they are performed (R270, log 44). -/
def fencedNow (s : State) : Bool :=
  fenced s.dev s.act0.key && (engineLeft s.dev0 s.act0.key || !(ownLive s.dev0 s.act0.key).isEmpty)

/-- Whether live reads of the activation must wait at issue: it is speculative, its held effects have not been released, or
a FENCE of an earlier bundle orders earlier accesses before them (R189, R242, R270). -/
def liveBlocked (s : State) (old : Dev) (a : Act) : Bool := speculative s a || !a.held.isEmpty || fenced old a.key

/-- Whether an atomic of the activation on a word of `[a, a + n)` is still on its way: its own reads there wait (R267). -/
def atomPending (d : Dev) (k : ActKey) (a n : Nat) : Bool :=
  (ownLive d k).any fun q => q.unit = .slot && touchesWords q a n && match q.op with
    | .atom _ _ _ => true | .atomr _ _ _ => true | _ => false

/-- The bytes a live read returns (R267, R269), `lines` being the sectors its core holds. -/
def liveBytes (lines : List (Nat × List Byte)) (d : Dev) (core : Nat) (k : ActKey) (a n : Nat) : List Byte :=
  memReadBytes (ownOver d k (coreView lines d core)) a n

/-- The core of an activation; 36 for none. -/
def actCore (a : Act) : Nat := match a.place with | some p => p.core | none => 36

/-- Whether another activation of the same stamp has not ended: a handler beside its activation, or handlers of traps without one
(R380, R381). -/
def hasKin (s : State) (a : Act) : Bool :=
  (acts s).any fun b => b.key != a.key && kin b.key a.key && b.status != .ended && b.status != .retired

/-- The core whose live sectors, and whose early sight of live stores, an activation reads with; 36 for none: activations of one
stamp that run side by side read at the home, so that neither reads older than the other has read (R269, R380). -/
def liveCore (a : Act) : Nat := if a.atHome then 36 else actCore a

/-- Whether some activation in a slot reads live memory at the home: until none does, no live store is read short of its home, so that
what counts as performed for a scope is what it finds there (R269, R270). -/
def homeReaders (s : State) : Bool := (acts s).any fun a => a.atHome && a.place.isSome

/-- The pieces of bytes at an address that lie in one 8-byte word each (R268). -/
def wordPieces : Nat → Nat → List Byte → List (Nat × List Byte)
  | 0, _, _ => []
  | fuel + 1, a, bs =>
    if bs.isEmpty then [] else (a, bs.take (8 - a % 8)) :: wordPieces fuel (a + (8 - a % 8)) (bs.drop (8 - a % 8))

/-! ### ORDERED memory (R252-R255) -/

/-- The bytes of one ORDERED word, unpromised ones free (R252, R253). -/
def wordBytes (d : Dev) : List (Option Byte) → List Byte × Dev
  | [] => ([], d)
  | x :: rest =>
    match x with
    | some b => let (bs, d1) := wordBytes d rest; (b :: bs, d1)
    | none =>
      let (bs, d1) := wordBytes { d with free := d.free + 1 } rest
      (Config.freeByte d.free :: bs, d1)

/-- Whether a vault's controller takes the ridge of a run for lower than it is (R257). -/
def copyBehind (s : State) (vault run : Nat) : Bool :=
  if h : vault < 32 then
    (s.dev.vaults[vault]).copies.any fun c => c.run = run && decide (s.dev.cycle < c.till) && c.ridge != ridge s run
  else false

/-- Whether a load of the activation at an ORDERED address is settled: it is at the ridge, and the vault's controller knows it
(R255, R257). -/
def loadSettled (s : State) (a : Act) (addr : Nat) : Bool :=
  atRidge s a && !copyBehind s (vaultOf addr) ((runOfKey a.key).getD 0)

/-- Load the ORDERED words `w, w + 8, ...`: values from `old`, reader records into `d` (R252, R254); `none` where a
record is needed and there is no room (R255). -/
def loadWords (old : Dev) (settled : Bool) (run : Nat) (a : Act) : Nat → Nat → Dev → Option (List Byte × Dev)
  | 0, _, d => some ([], d)
  | n + 1, w, d =>
    if !settled && !readerRoom d w a.stamp a.incarnation then none
    else
      let d1 := if settled then d else addReader d w run a.stamp a.incarnation
      let (bs, d2) := wordBytes d1 (orderedBytes old w a.key a.stamp)
      match loadWords old settled run a n (w + 8) d2 with
      | some (rest, d3) => some (bs ++ rest, d3)
      | none => none

/-! ### Loads and stores of an activation -/

/-- The run number of an activation, for records; stewards have none. -/
def runNum (a : Act) : Nat := (runOfKey a.key).getD 0

/-- Read `n` located bytes for activation `a`: values of memory as it stood in `old` (R42), bookkeeping into the
state; the sectors the core holds are those an acquire of the same bundle has left (R270). `none`: the bundle must stall
(R242, R255). -/
def readAt (s : State) (old : Dev) (a : Act) (l : Located) (n : Nat) : Option (List Byte × State) :=
  match l.mode with
  | .scratch => some (memReadBytes old.mem l.addr n, s)
  | .staged =>
    let r := readStaged old.mem s.dev (runNum a) a.stamp l.addr n
    some (r.1, { s with dev := r.2 })
  | .live =>
    if liveBlocked s old a || atomPending old a.key l.addr n then none
    else some (liveBytes (coreLines s.dev (liveCore a)) old (liveCore a) a.key l.addr n,
      { s with dev := fillLines s.dev (liveCore a) l.addr n })
  | .ordered =>
    let w := l.addr / 8 * 8
    match loadWords old (loadSettled s a l.addr) (runNum a) a ((l.addr + n - 1) / 8 + 1 - l.addr / 8) w s.dev with
    | some (bs, d) => some ((bs.drop (l.addr - w)).take n, { s with dev := d })
    | none => none

/-- A slot's read: STAGED sectors enter its core's L1; a feed's or an engine's do not (R243). -/
def loadAt (s : State) (old : Dev) (a : Act) (l : Located) (n : Nat) : Option (List Byte × State) :=
  (readAt s old a l n).map fun r =>
    if l.mode = .staged then (r.1, { r.2 with dev := holdStagedAt r.2.dev (actCore a) (runNum a) none l.addr n }) else r

/-- A slot's read of bytes that it uses at issue, a packet, a block or a batten: live ones wait behind a FENCE of its bundle. -/
def loadNow (s : State) (l : Located) (n : Nat) : Option (List Byte × State) :=
  if l.mode = .live && fencedNow s then none else loadAt s s.dev0 s.act0 l n

/-- An effect to hold, with the core it is issued on. -/
def heldOf (a : Act) (seq : Nat) (op : HeldOp) : Held := { seq := seq, op := op, core := actCore a }

/-- Hold an effect of a speculative activation (R189). -/
def pushHeld (s : State) (k : ActKey) (h : Held) : State :=
  match findAct s k with
  | some a => putAct s { a with held := a.held ++ [h] }
  | none => s

/-- Whether an activation's effects are held back: it is speculative, or earlier ones are still to be released
(R189). -/
def holdsBack (s : State) (a : Act) : Bool :=
  speculative s a || (match findAct s a.key with | some b => !b.held.isEmpty | none => false)

/-- A live access of an activation. -/
def liveReq (a : Act) (u : LiveUnit) (seq addr : Nat) (op : LiveOp) : LiveReq :=
  { who := a.key, seq := seq, addr := addr, op := op, core := actCore a, reach := 0, released := false, unit := u, counts := none }

/-- A live access sets out for its home. -/
def sendLive (s : State) (q : LiveReq) : State := { s with dev := { s.dev with liveq := s.dev.liveq ++ [q] } }

/-- Issue a live access of the slot: on its way to its home, or held while speculative (R189, R269). -/
def issueLive (s : State) (a : Act) (seq addr : Nat) (op : LiveOp) : State :=
  if holdsBack s a then pushHeld s a.key (heldOf a seq (.live addr op))
  else sendLive s (liveReq a .slot seq addr op)

/-- Send an entry to the cell of a word; `none` where a speculative activation finds no cell (R263). -/
def sendEntry (s : State) (a : Act) (word ptr seq lane : Nat) (op : HistOp) (val : Nat) : Option State :=
  if !cellAvailable s.dev word && speculative s a then none
  else some { s with dev := { s.dev with cellq := s.dev.cellq ++ [
    { word := word, run := runNum a, who := a.key, ptr := ptr, reserved := speculative s a
      entry := { stamp := a.stamp, seq := seq, lane := lane, op := op, val := val } }] } }

/-- The byte mask and operand of the part of a store that falls in a word. -/
def storePart (word addr : Nat) (bs : List Byte) : BitVec 8 × Nat :=
  [0, 1, 2, 3, 4, 5, 6, 7].foldl (fun (p : BitVec 8 × Nat) i =>
    if addr ≤ word + i && word + i < addr + bs.length then
      (p.1 ||| BitVec.ofNat 8 (2 ^ i), p.2 + 2 ^ (8 * i) * (bs.getD (word + i - addr) 0).toNat)
    else p) (0, 0)

/-- Store entries for the words a store touches (R247, R248). -/
def storeWords (a : Act) (ptr addr seq lane : Nat) (bs : List Byte) : Nat → Nat → State → Option State
  | 0, _, s => some s
  | n + 1, w, s =>
    let p := storePart w addr bs
    match sendEntry s a w (ptr + (w - addr) - (addr - w)) seq lane (.store p.1) p.2 with
    | some s1 => storeWords a ptr addr seq lane bs n (w + 8) s1
    | none => none

/-- Write bytes for activation `a` with a SEQ and a lane (R122, R280, R283); `none`: the bundle must stall. -/
def writeAt (s : State) (a : Act) (l : Located) (ptr seq lane : Nat) (bs : List Byte) : Option State :=
  match l.mode with
  | .scratch => some { s with dev := { s.dev with mem := memWriteBytes s.dev.mem l.addr bs } }
  | .staged => some { s with dev := writeStaged s.dev (runNum a) a.stamp l.addr bs }
  | .live => some ((wordPieces (bs.length + 1) l.addr bs).foldl (fun s p => issueLive s a seq p.1 (.store p.2)) s)
  | .ordered =>
    storeWords a ptr l.addr seq lane bs ((l.addr + bs.length - 1) / 8 + 1 - l.addr / 8) (l.addr / 8 * 8) s

/-- A slot's store: STAGED sectors enter its core's L1, owed to their home; a feed's or an engine's do not (R243). -/
def storeAt (s : State) (a : Act) (l : Located) (ptr seq lane : Nat) (bs : List Byte) : Option State :=
  (writeAt s a l ptr seq lane bs).map fun t =>
    if l.mode = .staged then { t with dev := holdStagedAt t.dev (actCore a) (runNum a) (some a.stamp) l.addr bs.length } else t

/-- A bundle with a load that cannot be made stalls; one that finds no room for a reader record does so until the load would be
settled (R255). -/
def stallLoad (s : State) (m : MemMode) : State :=
  let t := stall s
  if m = .ordered then { t with act := { t.act with hold := some .settled } } else t

/-- A bundle with a store that finds no cell stalls until the ridge has moved (R263). -/
def stallEntry (s : State) : State :=
  let t := stall s
  { t with act := { t.act with hold := some (.ridge ((runOfKey s.act0.key).bind (ridge t))) } }

/-- The trap of an access in the slot in issue. -/
def accessTrap (s : State) (t : Trapped) : State := slotTrap s t.code t.addr t.info

/-- The effective class of a timed load's target, `none` where it promises nothing (R238). -/
def effectiveClass (a : Act) (l : Located) : Option Nat :=
  match l.mode with
  | .scratch => some 1
  | .staged =>
    if l.lc = 0 then none
    else if l.addr < loftBase then some (max l.lc 4)
    else
      let v := vaultOf l.addr
      let c := actCore a
      some (max l.lc (if v = c then 1 else if dieOf v = dieOf c then 2 else 3))
  | .ordered => none
  | .live => none

end Sys2Proof.Machine
end

