-- ==== Sys2Proof/Machine/Feeds.lean ====
section
/-! DEFINITION. Feed units (R312-R323): battens, entries, pops and pushes, the FEED group, filling and draining. -/
namespace Sys2Proof.Machine

/-! ### Battens (R313, R314) -/

/-- The element size of a batten in bytes (R233). -/
def battenSize (b : Batten) : Nat := fmt4Width b.fmt / 8

/-- T: the number of elements (R314). -/
def battenTotal (b : Batten) : Nat := b.dims.foldl (fun n d => n * d.1) 1

/-- The number of 256-byte entries (R314). -/
def battenEntries (b : Batten) : Nat := (battenTotal b * battenSize b + 255) / 256

/-- The element offset of element `j`, in elements (R314). -/
def walkOffset : List (Nat × Int) → Nat → Int
  | [], _ => 0
  | (c, st) :: rest, j => (j % c : Nat) * st + walkOffset rest (j / c)

/-- `addr_j`, exact (R314); one that leaves PTR's field is judged by the tensor or window it lands in (log 46). -/
def elemAddr (b : Batten) (j : Nat) : Int := b.ptr + walkOffset b.dims j * battenSize b

/-- The format of a code 0-14 (R62). -/
def fmt4OfCode : Nat → Option Fmt4
  | 0 => some .i8 | 1 => some .i16 | 2 => some .i32 | 3 => some .i64
  | 4 => some .n8 | 5 => some .n16 | 6 => some .n32 | 7 => some .n64
  | 8 => some .f16 | 9 => some .bf16 | 10 => some .f32 | 11 => some .f64
  | 12 => some .e4m3 | 13 => some .e5m2 | 14 => some .x128
  | _ => none

/-- A little-endian field of a byte string. -/
def natAt (bs : List Byte) (o n : Nat) : Nat := natOfBytes ((bs.drop o).take n)

/-- The pairs of a batten from pair `d` on, `ndim` of them used; `none` when a pair breaks R313. -/
def battenDims (bs : List Byte) (ndim : Nat) : Nat → Nat → Option (List (Nat × Int))
  | 0, _ => some []
  | fuel + 1, d =>
    let c := natAt bs (16 + 8 * d) 4
    let st := sextInt 32 (natAt bs (20 + 8 * d) 4)
    if d < ndim then
      if c = 0 then none else (battenDims bs ndim fuel (d + 1)).map fun l => (c, st) :: l
    else if c = 0 && st = 0 then battenDims bs ndim fuel (d + 1) else none

/-- The batten in 64 bytes; `none` when they break R313 or R314. -/
def parseBatten (bs : List Byte) : Option Batten :=
  let dir := natAt bs 10 1
  let ndim := natAt bs 11 1
  match fmt4OfCode (natAt bs 8 2), battenDims bs ndim 6 0 with
  | some f, some dims =>
    let b : Batten := { ptr := natAt bs 0 8, fmt := f, out := dir = 1, dims := dims }
    if dir ≤ 1 && 1 ≤ ndim && ndim ≤ 6 && natAt bs 12 4 = 0 && battenTotal b ≤ 2 ^ 40 then some b else none
  | _, _ => none

/-- Whether PTR names what a feed may reach (R315); a handle that names no tensor, and a STAGED tensor whose sets lack the task, are left
to the elements (log 46). -/
def feedTarget (s : State) (a : Act) (ptr : Nat) : Bool :=
  if ptr / 2 ^ 62 = 0 then true
  else if ptr / 2 ^ 62 = 2 then
    match (actRun s a).bind fun r => imgTensor r.image (ptr / 2 ^ 44 % 4096) with
    | some t => t.order = .staged
    | none => true
  else false

/-! ### Feeds of an activation -/

/-- A feed of an activation. -/
def feedOf (a : Act) (e : EReg) : Option Feed := a.feeds[e.val]

/-- Replace a feed. -/
def setFeed (a : Act) (e : EReg) (f : Option Feed) : Act := { a with feeds := a.feeds.set e.val f }

/-- TINFO of FEED (R322). -/
def feedInfo (e : EReg) (inner cause : Nat) : Nat := e.val * 65536 + inner * 256 + cause

/-- FEED causes (R322). -/
def feedFAULT : Nat := 1
def feedUNBOUND : Nat := 2
def feedEND : Nat := 3
def feedDIRECTION : Nat := 4

/-- FEED of the slot in issue. -/
def feedTrap (s : State) (e : EReg) (cause : Nat) : State := slotTrap s codeFEED 0 (feedInfo e 0 cause)

/-- FEED with cause FAULT; the failure is cleared from the feed (R322). -/
def feedFaultTrap (s : State) (e : EReg) (f : Feed) (x : Nat × Nat) : State :=
  slotTrap { s with act0 := setFeed s.act0 e (some f) } codeFEED x.2 (feedInfo e x.1 feedFAULT)

/-- What the issue of a pop or push finds (R320, R322). -/
inductive FeedCheck where
  | trap (cause : Nat)
  | fault (f : Feed) (x : Nat × Nat)
  | wait
  | ok (f : Feed)
  deriving DecidableEq, Repr

/-- UNBOUND and DIRECTION alone (R320). -/
def checkDirection (a : Act) (e : EReg) (out : Bool) : Option Nat :=
  match feedOf a e with
  | none => some feedUNBOUND
  | some f => if f.batten.out = out then none else some feedDIRECTION

/-- The checks of a pop. A delivered failure leaves the buffer, and the unit reads again from the position. -/
def checkPop (a : Act) (e : EReg) : FeedCheck :=
  match feedOf a e with
  | none => .trap feedUNBOUND
  | some f =>
    if f.batten.out then .trap feedDIRECTION
    else if battenEntries f.batten ≤ f.pos then .trap feedEND
    else match f.buf with
      | [] => .wait
      | x :: _ => match x.fault with
        | some y => .fault { f with buf := [] } y
        | none => .ok f

/-- The checks of a push. -/
def checkPush (a : Act) (e : EReg) : FeedCheck :=
  match feedOf a e with
  | none => .trap feedUNBOUND
  | some f =>
    if !f.batten.out then .trap feedDIRECTION
    else match f.fault with
      | some y => .fault { f with fault := none } y
      | none =>
        if battenEntries f.batten ≤ f.pos then .trap feedEND
        else if 8 ≤ f.buf.length then .wait
        else .ok f

/-! ### Filling and draining (R312, R314, R321, R322) -/

/-- `locate` for a unit's own access: an XLAT passes to the resident service, which may map the tile and let the
unit try again (R322, R330). -/
def locateServed (s : State) (a : Act) (addr : Int) (size align : Nat) (k : AccKind) (w : Bool) :
    State × Except Trapped Located :=
  match locate s a addr size align k w 0 with
  | .ok l => (s, .ok l)
  | .error x =>
    if x.code = codeXLAT then
      match serviceMap s (runNum a) x.addr with
      | some s1 => (s1, locate s1 a addr size align k w 0)
      | none => (s, .error x)
    else (s, .error x)

/-- Read the elements `j, j + 1, ...` of an inbound feed; the first failure ends it. -/
def readElems (a : Act) (b : Batten) : Nat → Nat → State → State × Except Trapped (List Byte)
  | 0, _, s => (s, .ok [])
  | n + 1, j, s =>
    let (s1, r) := locateServed s a (elemAddr b j) (battenSize b) (battenSize b) .feed false
    match r with
    | .error x => (s1, .error x)
    | .ok l =>
      if badIn s1.dev l.addr (battenSize b) then
        (s1, .error { code := codeMEMX, addr := wrapNat 64 (elemAddr b j), info := 0 })
      else
      match readAt s1 s1.dev a l (battenSize b) with
      | none => (s1, .error (winTrap l.addr 0))
      | some (bs, s2) =>
        match readElems a b n (j + 1) s2 with
        | (s3, .ok rest) => (s3, .ok (bs ++ rest))
        | (s3, .error x) => (s3, .error x)

/-- Write the elements `j, j + 1, ...` of an outbound entry, every one that has no fault; the first failure is
kept. -/
def writeElems (a : Act) (b : Batten) (seq : Nat) : Nat → Nat → List Byte → State → State × Option (Nat × Nat)
  | 0, _, _, s => (s, none)
  | n + 1, j, bs, s =>
    let sz := battenSize b
    let (s1, r) := locateServed s a (elemAddr b j) sz sz .feed true
    let (s2, x) := match r with
      | .error t => (s1, some (t.code, t.addr))
      | .ok l => ((writeAt s1 a l (wrapNat 64 (elemAddr b j)) seq 0 (bs.take sz)).getD s1, none)
    let (s3, y) := writeElems a b seq n (j + 1) (bs.drop sz) s2
    (s3, match x with | some v => some v | none => y)

/-- The first element of entry `k` and how many the entry has (R314). -/
def entryElems (b : Batten) (k : Nat) : Nat × Nat :=
  let per := 256 / battenSize b
  (k * per, min per (battenTotal b - k * per))

/-- FEED_FILL: the unit of feed `e` reads its next entry, one in a core cycle, all of its elements in this step (R312, R320-R322;
log 46). -/
def execFeedFill (who : ActKey) (e : EReg) (s : State) : Host.Outcome State Fault Refusal :=
  .next (match findAct s who with
    | none => s
    | some a =>
      match a.place, feedOf a e with
      | some _, some f =>
        let k := f.pos + f.buf.length
        if f.batten.out || 8 ≤ f.buf.length || battenEntries f.batten ≤ k || s.dev.cycle < f.nextAt then s
        else
          let (j, n) := entryElems f.batten k
          let (s1, r) := readElems a f.batten n j s
          let x : FeedEntry := match r with
            | .ok bs => { data := BitVec.ofNat 2048 (natOfBytes bs), fault := none }
            | .error t => { data := 0, fault := some (t.code, t.addr) }
          match findAct s1 who with
          | some a1 => putAct s1 (setFeed a1 e (some { f with buf := f.buf ++ [x], nextAt := s.dev.cycle + 1 }))
          | none => s1
      | _, _ => s)

/-- FEED_DRAIN: the unit of feed `e` performs its oldest pushed entry, one in a core cycle, all of its elements in this step
(R320-R322; log 46). -/
def execFeedDrain (who : ActKey) (e : EReg) (s : State) : Host.Outcome State Fault Refusal :=
  .next (match findAct s who with
    | none => s
    | some a =>
      match a.place, feedOf a e with
      | some _, some f =>
        match f.batten.out, f.buf with
        | true, x :: rest =>
          if s.dev.cycle < f.nextAt then s
          else
          let (j, n) := entryElems f.batten (f.pos - f.buf.length)
          let (s1, y) := writeElems a f.batten f.seq n j (bytesOfNat 256 x.data.toNat) s
          let f1 := { f with buf := rest, fault := match f.fault with | some v => some v | none => y, nextAt := s.dev.cycle + 1 }
          match findAct s1 who with
          | some a1 => putAct s1 (setFeed a1 e (some f1))
          | none => s1
        | _, _ => s
      | _, _ => s)

/-! ### Pops and pushes (R320, R321) -/

/-- Remove the popped entry. A feed that another slot of the bundle flushed restarts after it; one that another slot bound anew
is not the one popped. -/
def takePop (a : Act) (e : EReg) (old : Feed) : Act :=
  match feedOf a e with
  | some g =>
    if g.bound != old.bound then a
    else setFeed a e (some { g with buf := if g.buf = old.buf then g.buf.drop 1 else g.buf, pos := g.pos + 1 })
  | none => a

/-- Pushed entries, from number `k` of their batten on, are written at once; the first failure is given (R321, R322). -/
def writeEntries (a : Act) (f : Feed) : Nat → List FeedEntry → State → State × Option (Nat × Nat)
  | _, [], s => (s, none)
  | k, x :: rest, s =>
    let (j, n) := entryElems f.batten k
    let (s1, y) := writeElems a f.batten f.seq n j (bytesOfNat 256 x.data.toNat) s
    let (s2, z) := writeEntries a f (k + 1) rest s1
    (s2, match y with | some v => some v | none => z)

/-- Entries that the bundle in issue pushes to a feed `f`, and that a slot of the bundle needs performed, are written at once,
then `go`; the bundle stalls while the unit has moved its entry of this core cycle, and a failure is raised precisely (R318, R320,
R322, R323). -/
def pushedNow (e : EReg) (f : Feed) (k : Nat) (xs : List FeedEntry) (go : State → State) (s : State) : State :=
  if s.dev.cycle < f.nextAt then stall s
  else match writeEntries s.act0 f k xs s with
  | (s1, none) => go s1
  | (_, some y) => feedFaultTrap s e { f with buf := [], fault := none } y

/-- Before a slot unbinds, rebinds or flushes a feed, what a lower slot of the bundle has pushed to it is performed (R318). -/
def settlePushed (e : EReg) (go : State → State) (s : State) : State :=
  match feedOf s.act0 e, feedOf s.act e with
  | some f, some g =>
    if g.batten.out && g.bound = f.bound && !g.buf.isEmpty then
      pushedNow e f (g.pos - g.buf.length) g.buf go { s with act := setFeed s.act e (some { g with buf := [], nextAt := s.dev.cycle + 1 }) }
    else go s
  | _, _ => go s

/-- VLD of a feed: a pop (R320). -/
def execVldFeedPop (k : KSel) (d : VReg) (e : EReg) (s : State) : Host.Outcome State Fault Refusal :=
  issue (.vldFeedPop k d e) s fun t s =>
    match checkPop s.act0 e with
    | .trap c => feedTrap s e c
    | .fault f x => feedFaultTrap s e f x
    | .wait => stall s
    | .ok f =>
      let x := match f.buf with | y :: _ => y.data | [] => 0
      awaitResult { s with act := takePop s.act e f } (.v d) x t (.after (s.dev.cycle + 2))

/-- VST to a feed: a push, its data taken at issue (R44, R320), to the feed as it stood before the bundle. Where a lower slot has
unbound or rebound it, or is END, the entry is performed at once (R318, R323). -/
def execVstFeedPush (k : KSel) (d : VReg) (e : EReg) (s : State) : Host.Outcome State Fault Refusal :=
  issue (.vstFeedPush k d e) s fun _ s =>
    match checkPush s.act0 e with
    | .trap c => feedTrap s e c
    | .fault f x => feedFaultTrap s e f x
    | .wait => stall s
    | .ok f =>
      let x : FeedEntry := { data := readV s.act0 d, fault := none }
      match (if s.iss.ctl = .endAct then none else feedOf s.act e) with
      | some g =>
        if g.bound = f.bound then { s with act := setFeed s.act e (some { g with buf := g.buf ++ [x], pos := g.pos + 1 }) }
        else pushedNow e f f.pos [x] id s
      | none => pushedNow e f f.pos [x] id s

/-! ### The FEED group (R316-R319) -/

/-- ENG of the slot in issue (R204, R335). -/
def engTrap (s : State) (cause : Nat) : State := slotTrap s codeENG 0 cause

/-- What FUNBIND and an outbound FFLUSH meet: a held failure, entries still to perform, or nothing (R318, R322). -/
def checkDrained (f : Feed) : FeedCheck :=
  if f.batten.out then
    match f.fault with
    | some y => .fault { f with fault := none } y
    | none => if f.buf.isEmpty then .ok f else .wait
  else .ok f

/-- The binding itself, once eD is free (R317). -/
def bindFeed (e : EReg) (a : SReg) (t : Tag) (s : State) : State :=
  let p := (readS s.act0 a).toNat
  match locateRead s s.act0 p 64 64 .load with
  | .error x => accessTrap s x
  | .ok l =>
    match loadNow s l 64 with
    | none => stallLoad s l.mode
    | some (bs, s1) =>
      if feedCount s s.act0 ≤ e.val then engTrap s 9
      else match parseBatten bs with
        | none => engTrap s 10
        | some b =>
          if !feedTarget s s.act0 b.ptr then engTrap s 11
          else
            let f : Feed :=
              { raw := bs, batten := b, pos := 0, buf := [], seq := nextSeq s1, bound := nextSeq s1, fault := none, nextAt := 0 }
            let s2 := bumpSeq s1
            let t' := if tagIn s.iss.freed t then tagStale else t
            { s2 with act := { setFeed s2.act e (some f) with eTag := s2.act.eTag.set e.val t' } }

/-- FBIND (R317). -/
def execFbind (k : KSel) (e : EReg) (a : SReg) (s : State) : Host.Outcome State Fault Refusal :=
  issue (.fbind k e a) s fun t s =>
    match feedOf s.act0 e with
    | none => bindFeed e a t s
    | some f =>
      match checkDrained f with
      | .fault g x => feedFaultTrap s e g x
      | .wait => stall s
      | _ => settlePushed e (bindFeed e a t) s

/-- FUNBIND (R318); the e register keeps the tag of its FBIND (log 4). -/
def execFunbind (k : KSel) (e : EReg) (s : State) : Host.Outcome State Fault Refusal :=
  issue (.funbind k e) s fun _ s =>
    match feedOf s.act0 e with
    | none => s
    | some f =>
      match checkDrained f with
      | .fault g x => feedFaultTrap s e g x
      | .wait => stall s
      | _ => settlePushed e (fun s => { s with act := setFeed s.act e none }) s

/-- FFLUSH (R318, R321). -/
def execFflush (k : KSel) (e : EReg) (s : State) : Host.Outcome State Fault Refusal :=
  issue (.fflush k e) s fun _ s =>
    match feedOf s.act0 e with
    | none => feedTrap s e feedUNBOUND
    | some f =>
      match checkDrained f with
      | .fault g x => feedFaultTrap s e g x
      | .wait => stall s
      | _ =>
        if f.batten.out then settlePushed e id s
        else
          let pos := match feedOf s.act e with | some g => g.pos | none => f.pos
          bumpSeq { s with act := setFeed s.act e (some { f with buf := [], pos := pos, seq := nextSeq s }) }

/-- The value FSTAT reads (R319). -/
def fstatValue (x : Option Feed) : Nat :=
  match x with
  | none => 0
  | some f =>
    2 ^ 63 + (if f.batten.out then 2 ^ 62 else 0)
      + (if f.fault.isSome || f.buf.any (fun e => e.fault.isSome) then 2 ^ 61 else 0)
      + (if f.pos = battenEntries f.batten then 2 ^ 60 else 0)
      + fmt4Code f.batten.fmt * 2 ^ 56 + f.buf.length * 2 ^ 52 + f.pos % 2 ^ 48

/-- FSTAT (R319). -/
def execFstat (k : KSel) (d : SReg) (e : EReg) (s : State) : Host.Outcome State Fault Refusal :=
  issue (.fstat k d e) s fun t s => resultS s d (BitVec.ofNat 64 (fstatValue (feedOf s.act0 e))) 1 t

/-- What END meets in the feeds, lowest number first (R322, R323). -/
def checkEndFeeds (a : Act) : Option (EReg × FeedCheck) :=
  let l := ([0, 1, 2, 3, 4, 5, 6, 7] : List EReg).filterMap fun e =>
    (feedOf a e).map fun f => (e, checkDrained f)
  match l.find? fun p => match p.2 with | .fault _ _ => true | _ => false with
  | some p => some p
  | none => l.find? fun p => p.2 = .wait

/-- END performs what its own bundle has pushed, feed by feed (R323). -/
def settleAll (go : State → State) : List EReg → State → State
  | [], s => go s
  | e :: rest, s => settlePushed e (settleAll go rest) s

/-- Whether the feed can be popped or pushed (R118); one whose next entry or unit failed counts as usable (log 45). -/
def feedUsable (a : Act) (e : EReg) : Bool :=
  match feedOf a e with
  | none => false
  | some f => if f.batten.out then decide (f.buf.length < 8) && decide (f.pos < battenEntries f.batten)
    else !f.buf.isEmpty

end Sys2Proof.Machine
end

