-- ==== Sys2Proof/Machine/Control.lean ====
section
/-! DEFINITION. Control: branches, loops, segments, ends, breakpoints, waits (R27-R31, R104-R120, R295). What a
control slot decides stands in `Iss.ctl` and takes effect when its bundle commits. -/
namespace Sys2Proof.Machine

/-- The length of the code section. -/
def codeLen (s : State) : Nat := (codeOf s s.act0).length

/-- The address of the bundle that follows the bundle in issue (R105). -/
def nextBundle (s : State) : Nat := s.act0.pc + 4 * s.iss.words.length

/-- Record what the control slot decides. -/
def setCtl (s : State) (c : Ctl) : State := { s with iss := { s.iss with ctl := c } }

/-- Transfer control: WIN when the target lies outside the code section (R108). -/
def transfer (s : State) (target : Int) (eff : State → State) : State :=
  if target < 0 || (codeLen s : Int) ≤ target then slotTrap s codeWIN (wrapNat 64 target) 0
  else eff (setCtl s (.jump target.toNat))

/-- The target of a B form (R54). -/
def dispTarget (s : State) (disp : BitVec 21) : Int := s.act0.pc + 4 * sextInt 21 disp.toNat

/-- BR (R104). -/
def execBr (k : KSel) (disp : BitVec 21) (s : State) : Host.Outcome State Fault Refusal :=
  issue (.br k disp) s fun _ s => transfer s (dispTarget s disp) fun s => s

/-- JAL (R105). -/
def execJal (k : KSel) (disp : BitVec 21) (s : State) : Host.Outcome State Fault Refusal :=
  issue (.jal k disp) s fun t s =>
    transfer s (dispTarget s disp) fun s => resultS s 30 (BitVec.ofNat 64 (nextBundle s)) 1 t

/-- JALR: ALIGN before WIN (R106, R108). -/
def execJalr (k : KSel) (d a : SReg) (imm : BitVec 11) (s : State) : Host.Outcome State Fault Refusal :=
  issue (.jalr k d a imm) s fun t s =>
    let target : Int := (readS s.act0 a).toNat + 4 * immOf s imm
    if target % 4 ≠ 0 then slotTrap s codeALIGN (wrapNat 64 target) 0
    else transfer s target fun s => resultS s d (BitVec.ofNat 64 (nextBundle s)) 1 t

/-! ### Loops (R27-R30, R109-R113) -/

/-- Push a level, or skip the body when the count is 0; the refusals of R110 come first, six levels before the body's last bundle where
both hold (log 63). -/
def pushLoop (s : State) (count : Word) (len : Nat) : State :=
  let code := codeOf s s.act0
  if 6 ≤ s.act0.loops.length then slotTrap s codeLOOPO 0 0
  else if endsBody code s.act0 s.act0.pc then slotTrap s codeLOOPO 0 1
  else
    let l : Level := { count := count, index := 0, start := nextBundle s, len := len }
    if count = 0 then setCtl s (.skipBody (bodyAfter code l)) else setCtl s (.pushLevel l)

/-- LOOP (R109). -/
def execLoop (k : KSel) (a : SReg) (len : Fin 2048) (s : State) : Host.Outcome State Fault Refusal :=
  issue (.loop k a len) s fun _ s => pushLoop s (readS s.act0 a) len.val

/-- LOOPI (R109). -/
def execLoopi (k : KSel) (cnt : Fin 1024) (len : Fin 2048) (s : State) : Host.Outcome State Fault Refusal :=
  issue (.loopi k cnt len) s fun _ s => pushLoop s (BitVec.ofNat 64 cnt.val) len.val

/-- LIDX: the index of a level counted from the innermost (R112). -/
def execLidx (k : KSel) (d : SReg) (level : Fin 6) (s : State) : Host.Outcome State Fault Refusal :=
  issue (.lidx k d level) s fun t s =>
    match s.act0.loops.drop level.val with
    | l :: _ => resultS s d l.index 1 t
    | [] => slotTrap s codeLOOPU 0 0

/-- LBRK (R112). -/
def execLbrk (k : KSel) (s : State) : Host.Outcome State Fault Refusal :=
  issue (.lbrk k) s fun _ s =>
    match s.act0.loops with
    | l :: _ => setCtl s (.popLevel (bodyAfter (codeOf s s.act0) l))
    | [] => slotTrap s codeLOOPU 0 0

/-- LNEXT (R112). -/
def execLnext (k : KSel) (s : State) : Host.Outcome State Fault Refusal :=
  issue (.lnext k) s fun _ s =>
    match s.act0.loops with
    | _ :: _ => setCtl s .endPass
    | [] => slotTrap s codeLOOPU 0 0

/-- LDEPTH (R112). -/
def execLdepth (k : KSel) (d : SReg) (s : State) : Host.Outcome State Fault Refusal :=
  issue (.ldepth k d) s fun t s => resultS s d (BitVec.ofNat 64 s.act0.loops.length) 1 t

/-- The end of a pass of the innermost level (R29, R113): what is left of the stack and where execution goes on. A
level popped here passes the check on when its last bundle, at `last`, is also that of the level beneath. -/
def passOf (code : List Byte) (last : Nat) : List Level → List Level × Nat
  | [] => ([], 0)
  | l :: rest =>
    if l.index + 1 = l.count then
      match rest with
      | m :: _ => if bodyLast code m = last then passOf code last rest else (rest, bodyAfter code l)
      | [] => (rest, bodyAfter code l)
    else ({ l with index := l.index + 1 } :: rest, l.start)

/-- End the current pass of an activation's innermost level. -/
def endPassOf (code : List Byte) (a : Act) : Act :=
  match a.loops with
  | [] => { a with passEnd := false }
  | l :: _ =>
    let r := passOf code (bodyLast code l) a.loops
    { a with loops := r.1, pc := r.2, passEnd := false }

/-- LOOP_PASS_END: the end of pass that a completed body bundle made due (R29, R113). -/
def execLoopPassEnd (s : State) : Host.Outcome State Fault Refusal :=
  .next (if s.act.passEnd then { s with act := { endPassOf (codeOf s s.act) s.act with boundary := true } } else s)

/-! ### Segments, ends, breakpoints (R114-R117) -/

/-- NOP (R114). -/
def execNop (k : KSel) (s : State) : Host.Outcome State Fault Refusal := issue (.nop k) s fun _ s => s

/-- YIELD (R115). -/
def execYield (k : KSel) (s : State) : Host.Outcome State Fault Refusal :=
  issue (.yield k) s fun _ s => setCtl s .yield

/-- Whether engine commands or collectives of an activation have not completed, their live writes included (R271, R334). -/
def engineBusy (d : Dev) (k : ActKey) : Bool :=
  engineLeft d k || d.liveq.any fun q => q.who = k && q.unit = .engine

/-- Whether END must wait for engine commands of an activation, a COLL held back among them (R189, R334, R415). -/
def endBusy (d : Dev) (a : Act) : Bool :=
  engineBusy d a.key || a.held.any fun h => match h.op with | .coll _ _ _ => true | _ => false

/-- Whether array commands of an activation have not completed or been abandoned (R355). -/
def arrayBusy (d : Dev) (a : Act) : Bool :=
  match a.place with
  | some p =>
    let c := getCore d p.core
    c.mulq.any (fun m => m.owner = a.key) || c.wq.any (fun m => m.owner = a.key)
  | none => false

/-- END: it meets held failures of outbound feeds, and waits for outbound entries, engine commands and array
commands (R116, R323, R334, R355); entries pushed by lower slots of its bundle are performed with it. It does not wait for engine and
array commands of its own bundle (logs 49 and 73). -/
def execEndAct (k : KSel) (s : State) : Host.Outcome State Fault Refusal :=
  issue (.endAct k) s fun _ s =>
    match checkEndFeeds s.act0 with
    | some (e, .fault f x) => feedFaultTrap s e f x
    | r =>
      if endBusy s.dev0 s.act0 then stallSwitch s
      else if r.isSome || arrayBusy s.dev0 s.act0 then stall s
      else settleAll (fun s => setCtl s .endAct) [0, 1, 2, 3, 4, 5, 6, 7] s

/-- BRK (R117). -/
def execBrk (k : KSel) (s : State) : Host.Outcome State Fault Refusal :=
  issue (.brk k) s fun _ s => slotTrap s codeBRK 0 0

/-- TRAP (R117). -/
def execTrap (k : KSel) (imm : BitVec 11) (s : State) : Host.Outcome State Fault Refusal :=
  issue (.trap k imm) s fun _ s => slotTrap s codeSWT 0 (immWord s imm).toNat

/-! ### Waiting (R118, R119, R295) -/

/-- The pointer, size and alignment a condition on memory names. -/
def waitAccess : WaitCond → Option (Nat × Nat)
  | .gen p _ => some (p, 16)
  | .eq p _ => some (p, 8)
  | .ge p _ => some (p, 8)
  | _ => none

/-- Whether the condition on a word is met (R118). -/
def wordMeets (c : WaitCond) (x : Nat) : Bool :=
  match c with
  | .gen _ g => (x / 2 ^ 48 + 65536 - g % 65536) % 65536 < 32768
  | .eq _ v => x = v.toNat
  | .ge _ v => decide (v.toNat ≤ x)
  | _ => false

/-- What the device finds when it evaluates a WAIT: a trap, or whether the condition holds. A WAIT on memory
holds only for a non-speculative activation, and reads the word at its home once every party reads what the activation would find
there (R270, R295). -/
def waitState (s : State) (a : Act) (c : WaitCond) : Except Trapped Bool :=
  match c with
  | .ridge => .ok (atRidge s a)
  | .feed e => match feedOf a e with
    | none => .error { code := codeFEED, addr := 0, info := feedInfo e 0 feedUNBOUND }
    | some _ => .ok (feedUsable a e)
  | c =>
    match waitAccess c with
    | none => .ok false
    | some (p, n) =>
      match locateRead s a p n n .liveOnly with
      | .error t => .error t
      | .ok l => .ok (!liveBlocked s s.dev a && !atomPending s.dev a.key l.addr 8
          && !narrowStore s.dev (liveCore a) a.key a.seq.toNat l.addr 8 && wordMeets c (memReadNat s.dev.mem l.addr 8))

/-- The bundle stalls on an unsatisfied WAIT, and its core may switch (R119, R193). -/
def stallWait (s : State) (c : WaitCond) : State :=
  let s1 := stallSwitch s
  yieldCore { s1 with act := { s1.act with status := .waiting c } } s1.act

/-- Whether a satisfied condition leaves the core without its live lines: the read of one on memory acts as an acquire at
system scope (R295), and after wait.ridge the lower phases' live writes are visible without one (R273). -/
def acquires : WaitCond → Bool
  | .feed _ => false
  | _ => true

/-- A WAIT on the arrival word at `addr` has found the word's generation: from the operation with this SEQ on the activation sees
the engine writes the generation covers (R271). -/
def seeCovered (d : Dev) (k : ActKey) (seq addr : Nat) : Dev :=
  { d with engineUses := d.engineUses.map fun u =>
      if stampOfKey k = some (u.run, u.stamp) && u.arrival = addr && u.seen.all (fun x => decide (x.2 < u.covered)) then
        { u with seen := u.seen ++ [(seq, u.covered)] }
      else u }

/-- The device address of the word a condition on memory names. -/
def waitWord (s : State) (a : Act) (c : WaitCond) : Option Nat :=
  match waitAccess c with
  | none => none
  | some (p, n) => match locateRead s a p n n .liveOnly with
    | .ok l => some l.addr
    | .error _ => none

/-- The live reads of an activation's earlier bundles are made: no later FENCE or WAIT leaves one to be made anew (R268, R270). -/
def settleReads (a : Act) : Act :=
  { a with pend := a.pend.map fun p => match p.wait with
    | .live _ _ _ _ false => { p with wait := .ready }
    | _ => p }

/-- What a satisfied condition leaves: the acquire's lines gone, and the writes it grants seen (R270, R271, R273, R295). -/
def waitMet (c : WaitCond) (s : State) : State :=
  if acquires c then
    let d := dropLines s.dev (actCore s.act0)
    { s with
      act := settleReads s.act
      dev := match waitWord (before s) s.act0 c with | some x => seeCovered d s.act0.key (nextSeq s) x | none => d }
  else s

/-- Whether a WAIT on memory stands behind a FENCE of its bundle that still waits for accesses of earlier bundles (R270). -/
def waitFenced (s : State) (c : WaitCond) : Bool := (waitAccess c).isSome && fencedNow s

/-- A WAIT (R118, R119). -/
def waitOn (c : WaitCond) (s : State) : State :=
  match waitState (before s) s.act0 c with
  | .error t => accessTrap s t
  | .ok true => if waitFenced s c then stallWait s c else waitMet c s
  | .ok false => stallWait s c

/-- WAIT.GEN (R118). -/
def execWaitGen (k : KSel) (a b : SReg) (s : State) : Host.Outcome State Fault Refusal :=
  issue (.waitGen k a b) s fun _ s =>
    waitOn (.gen (readS s.act0 a).toNat ((readS s.act0 b).toNat % 65536)) s

/-- WAIT.RIDGE (R118, R273). -/
def execWaitRidge (k : KSel) (s : State) : Host.Outcome State Fault Refusal :=
  issue (.waitRidge k) s fun _ s => waitOn .ridge s

/-- WAIT.EQ (R118). -/
def execWaitEq (k : KSel) (a b : SReg) (s : State) : Host.Outcome State Fault Refusal :=
  issue (.waitEq k a b) s fun _ s => waitOn (.eq (readS s.act0 a).toNat (readS s.act0 b)) s

/-- WAIT.GE (R118). -/
def execWaitGe (k : KSel) (a b : SReg) (s : State) : Host.Outcome State Fault Refusal :=
  issue (.waitGe k a b) s fun _ s => waitOn (.ge (readS s.act0 a).toNat (readS s.act0 b)) s

/-- WAIT.FEED (R118). -/
def execWaitFeed (k : KSel) (e : EReg) (s : State) : Host.Outcome State Fault Refusal :=
  issue (.waitFeed k e) s fun _ s => waitOn (.feed e) s

end Sys2Proof.Machine
end

