-- ==== Sys2Proof/Machine/MemoryOps.lean ====
section
/-! DEFINITION. Loads, stores, FBY, strided and indexed accesses, timed loads, atomics, the live-memory group and
prefetch (R41-R47, R121-R124, R279-R296). -/
namespace Sys2Proof.Machine

/-! ### LD, ST, VLD, VST (R121, R122) -/

/-- Bytes of an LD by its W (R53). -/
def ldSize : LdW → Nat
  | .i8 | .n8 => 1 | .i16 | .n16 => 2 | .i32 | .n32 => 4 | .i64 => 8

/-- Whether an LD extends with the sign (R122). -/
def ldSigned : LdW → Bool
  | .i8 | .i16 | .i32 | .i64 => true
  | .n8 | .n16 | .n32 => false

/-- Bytes of an ST by its W (R53). -/
def stSize : StW → Nat
  | .i8 => 1 | .i16 => 2 | .i32 => 4 | .i64 => 8

/-- The exact address of an M form (R122). -/
def mAddr (s : State) (a : SReg) (off : BitVec 8) (size : Nat) : Int :=
  (readS s.act0 a).toNat + sextInt 8 off.toNat * size

/-- The value of loaded bytes in a scalar register. -/
def loadedWord (signed : Bool) (bs : List Byte) : Word :=
  if signed then wordOfInt (sextInt (8 * bs.length) (natOfBytes bs)) else BitVec.ofNat 64 (natOfBytes bs)

/-- Whether a lower slot of the bundle in issue accesses a word of `[a, a + n)`: a load finds there what stood before the bundle
(R42). -/
def sameBundle (s : State) (a n : Nat) : Bool :=
  (ownLive s.dev s.act0.key).any fun q => decide (s.act0.seq.toNat ≤ q.seq) && touchesWords q a n

/-- The 8-byte words, or the one element, of `n` located bytes that are live and may be read later than at issue: device address and
pointer. -/
def liveParts (s : State) (n : Nat) (x : Located × Nat) : List (Option (Nat × Nat)) :=
  (List.range (max 1 (n / 8))).map fun i =>
    if x.1.mode = .live && !sameBundle s (x.1.addr + 8 * i) (min n 8) then some (x.1.addr + 8 * i, x.2 + 8 * i) else none

/-- What a loaded result still waits for: live elements of a vector access are read each on its own (R268), and live bytes
behind a FENCE or LDACQ of the same bundle after it (R270), but for words a lower slot of the bundle accesses (R42); a scalar one extends with the sign where `signed` (R122). -/
def liveWait (s : State) (seq n : Nat) (signed : Bool) (ls : List (Located × Nat)) : Awaiting :=
  let f := fenced s.dev s.act0.key
  if (ls.any fun x => x.1.mode = .live) && (f || decide (8 < n) || decide (1 < ls.length)) then
    .live seq (min n 8) (ls.flatMap (liveParts s n)) signed f
  else .ready

/-- A result of `n` located bytes read through a pointer comes under interlock (R26). Bytes with an uncorrectable error
leave it there and make MEMX pending, with the operation's SEQ (R384). -/
def awaitLoaded (s : State) (seq : Nat) (d : Dest) (v : Vec) (t : Tag) (n : Nat) (signed : Bool) (ls : List (Located × Nat)) :
    State :=
  match ls.find? fun x => badIn s.dev x.1.addr n with
  | none => awaitResult s d v t (liveWait s seq n signed ls)
  | some x =>
    awaitFailed s d v t (deferredRec codeMEMX x.2 (memLevel x.1.addr) s.act0.stamp seq)

/-- A plain load of `n` bytes: memory as it stood before the bundle, interlocked (R26, R42, R122). -/
def doLoad (addr : Int) (n : Nat) (d : Dest) (signed : Bool) (val : List Byte → Vec) (t : Tag) (s : State) : State :=
  match locate s s.act0 addr n n .load false 0 with
  | .error x => accessTrap s x
  | .ok l =>
    match loadAt s s.dev0 s.act0 l n with
    | none => stallLoad s l.mode
    | some (bs, s1) =>
      awaitLoaded (bumpSeq s1) (nextSeq s1) d (val bs) t n signed [(l, wrapNat 64 addr)]

/-- A plain store (R122). -/
def doStore (addr : Int) (bs : List Byte) (s : State) : State :=
  match locate s s.act0 addr bs.length bs.length .store true 0 with
  | .error x => accessTrap s x
  | .ok l =>
    match storeAt s s.act0 l (wrapNat 64 addr) (nextSeq s) 0 bs with
    | none => stallEntry s
    | some s1 => bumpSeq s1

/-- Bytes as a vector register (R122). -/
def vecOfBytes (bs : List Byte) : Vec := BitVec.ofNat 2048 (natOfBytes bs)

/-- LD (R122). -/
def execLd (k : KSel) (d a : SReg) (w : LdW) (off : BitVec 8) (s : State) : Host.Outcome State Fault Refusal :=
  issue (.ld k d a w off) s fun t s =>
    doLoad (mAddr s a off (ldSize w)) (ldSize w) (.s d) (ldSigned w) (fun bs => vecOfWord (loadedWord (ldSigned w) bs)) t s

/-- ST (R122). -/
def execSt (k : KSel) (d a : SReg) (w : StW) (off : BitVec 8) (s : State) : Host.Outcome State Fault Refusal :=
  issue (.st k d a w off) s fun _ s =>
    doStore (mAddr s a off (stSize w)) (bytesOfNat (stSize w) (readS s.act0 d).toNat) s

/-- VLD (R122). -/
def execVld (k : KSel) (d : VReg) (a : SReg) (off : BitVec 8) (s : State) : Host.Outcome State Fault Refusal :=
  issue (.vld k d a off) s fun t s => doLoad (mAddr s a off 256) 256 (.v d) false vecOfBytes t s

/-- VST (R122). -/
def execVst (k : KSel) (d : VReg) (a : SReg) (off : BitVec 8) (s : State) : Host.Outcome State Fault Refusal :=
  issue (.vst k d a off) s fun _ s => doStore (mAddr s a off 256) (bytesOfNat 256 (readV s.act0 d).toNat) s

/-! ### FBY (R45-R47, R124, R281) -/

/-- The priors of `n` ORDERED words from `w` (R252). -/
def priorBytes (d : Dev) (p : Nat × Nat) : Nat → Nat → List Byte
  | 0, _ => []
  | n + 1, w => bytesOfNat 8 (prior d w p) ++ priorBytes d p n (w + 8)

/-- FBY: the old value is the prior of the phase, the store an entry of the phase. -/
def doFby (addr : Int) (bs : List Byte) (d : Dest) (t : Tag) (s : State) : State :=
  match locate s s.act0 addr bs.length bs.length .fby true 0 with
  | .error x => accessTrap s x
  | .ok l =>
    match loadAt s s.dev0 s.act0 l bs.length with
    | none => stallLoad s l.mode
    | some (_, s1) =>
      match storeAt s1 s1.act0 l (wrapNat 64 addr) (nextSeq s1) 0 bs with
      | none => stallEntry s
      | some s2 =>
        let old := priorBytes s.dev0 (phaseOf s.act0.stamp) (bs.length / 8) l.addr
        awaitLoaded (bumpSeq s2) (nextSeq s2) d (vecOfBytes old) t bs.length false [(l, wrapNat 64 addr)]

/-- FBY, scalar (R124). -/
def execFbyScalar (k : KSel) (d a b : SReg) (s : State) : Host.Outcome State Fault Refusal :=
  issue (.fbyScalar k d a b) s fun t s =>
    doFby (readS s.act0 a).toNat (bytesOfNat 8 (readS s.act0 b).toNat) (.s d) t s

/-- FBY, vector (R124). -/
def execFbyVector (k : KSel) (d : VReg) (a : SReg) (b : VReg) (s : State) : Host.Outcome State Fault Refusal :=
  issue (.fbyVector k d a b) s fun t s =>
    doFby (readS s.act0 a).toNat (bytesOfNat 256 (readV s.act0 b).toNat) (.v d) t s

/-! ### VGS (R282-R284) -/

/-- The elements of a strided or indexed access, located lane by lane; the first failing lane ends it (R279). -/
def locateLanes (s : State) (k : AccKind) (w : Bool) (n : Nat) (f : Nat → Int) :
    List Nat → Except Trapped (List Located)
  | [] => .ok []
  | i :: rest =>
    match locate s s.act0 (f i) n n k w i with
    | .error x => .error x
    | .ok l =>
      match locateLanes s k w n f rest with
      | .ok ls => .ok (l :: ls)
      | .error x => .error x

/-- Load located elements from memory as it stood before the bundle. -/
def loadLanes (n : Nat) : List Located → State → Option (List Nat × State)
  | [], s => some ([], s)
  | l :: rest, s =>
    match loadAt s s.dev0 s.act0 l n with
    | none => none
    | some (bs, s1) =>
      match loadLanes n rest s1 with
      | some (xs, s2) => some (natOfBytes bs :: xs, s2)
      | none => none

/-- Store lanes in ascending order (R283). -/
def storeLanes (n : Nat) (f : Nat → Int) (v : Vec) : Nat → List Located → State → Option State
  | _, [], s => some s
  | i, l :: rest, s =>
    match storeAt s s.act0 l (wrapNat 64 (f i)) (nextSeq s) i (bytesOfNat n (lane (8 * n) v i)) with
    | some s1 => storeLanes n f v (i + 1) rest s1
    | none => none

/-- VLDS and VGATH (R283). -/
def gather (w : EWidth) (d : VReg) (f : Nat → Int) (t : Tag) (s : State) : State :=
  let b := ewBits w
  match locateLanes s .load false (b / 8) f (List.range (lanes b)) with
  | .error x => accessTrap s x
  | .ok ls =>
    match loadLanes (b / 8) ls s with
    | none => stallLoad s (if ls.any fun l => l.mode = .ordered then .ordered else .live)
    | some (xs, s1) =>
      awaitLoaded (bumpSeq s1) (nextSeq s1) (.v d) (ofLaneList b xs) t (b / 8) false
        (ls.zip ((List.range (lanes b)).map fun i => wrapNat 64 (f i)))

/-- VSTS and VSCAT (R283). -/
def scatter (w : EWidth) (v : Vec) (f : Nat → Int) (s : State) : State :=
  let b := ewBits w
  match locateLanes s .store true (b / 8) f (List.range (lanes b)) with
  | .error x => accessTrap s x
  | .ok ls =>
    match storeLanes (b / 8) f v 0 ls s with
    | none => stallEntry s
    | some s1 => bumpSeq s1

/-- `addr_i` of a strided access (R283). -/
def strideAddr (s : State) (a b : SReg) (i : Nat) : Int := (readS s.act0 a).toNat + i * (readS s.act0 b).toInt

/-- `addr_i` of an indexed access (R283). -/
def indexAddr (s : State) (w : EWidth) (a : SReg) (b : VReg) (i : Nat) : Int :=
  (readS s.act0 a).toNat + lane (ewBits w) (readV s.act0 b) i * (ewBits w / 8)

/-- VLDS (R283). -/
def execVlds (k : KSel) (d : VReg) (a b : SReg) (w : EWidth) (s : State) : Host.Outcome State Fault Refusal :=
  issue (.vlds k d a b w) s fun t s => gather w d (strideAddr s a b) t s

/-- VSTS (R283). -/
def execVsts (k : KSel) (d : VReg) (a b : SReg) (w : EWidth) (s : State) : Host.Outcome State Fault Refusal :=
  issue (.vsts k d a b w) s fun _ s => scatter w (readV s.act0 d) (strideAddr s a b) s

/-- VGATH (R283). -/
def execVgath (k : KSel) (d : VReg) (a : SReg) (b : VReg) (w : EWidth) (s : State) :
    Host.Outcome State Fault Refusal :=
  issue (.vgath k d a b w) s fun t s => gather w d (indexAddr s w a b) t s

/-- VSCAT (R283). -/
def execVscat (k : KSel) (d : VReg) (a : SReg) (b : VReg) (w : EWidth) (s : State) :
    Host.Outcome State Fault Refusal :=
  issue (.vscat k d a b w) s fun _ s => scatter w (readV s.act0 d) (indexAddr s w a b) s

/-! ### LDT (R238, R285, R286) -/

/-- Bytes of an LDT. -/
def ldtSize : LdtW → Nat
  | .byte => 1 | .half => 2 | .word => 4 | .double => 8 | .vector => 256

/-- A class's number. -/
def classNum : LdtClass → Nat
  | .c1 => 1 | .c2 => 2 | .c3 => 3 | .c4 => 4

/-- A class's distance in advance cycles (R238). -/
def classDist : LdtClass → Nat
  | .c1 => 40 | .c2 => 160 | .c3 => 400 | .c4 => 1200

/-- The destination of an LDT. -/
def ldtDest (d : Fin 32) : LdtW → Dest
  | .vector => .v d
  | _ => .s d

/-- LDT: a fixed-latency result whose data are still to come (R285). -/
def execLdt (k : KSel) (d : Fin 32) (a : SReg) (c : LdtClass) (w : LdtW) (s : State) :
    Host.Outcome State Fault Refusal :=
  issue (.ldt k d a c w) s fun t s =>
    let p := (readS s.act0 a).toNat
    let n := ldtSize w
    match locate s s.act0 p n n .timed false 0 with
    | .error x => accessTrap s x
    | .ok l =>
      let e := effectiveClass s.act0 l
      if (match e with | some x => decide (x ≤ classNum c) | none => false) then
        match loadAt s s.dev0 s.act0 l n with
        | none => stallLoad s l.mode
        | some (bs, s1) =>
          let s2 := bumpSeq s1
          let f : InFlight := { dest := ldtDest d w, val := vecOfBytes bs, tag := t, due := s2.act.adv + classDist c, issued := s2.act.adv,
                                stale := tagIn s2.iss.freed t, timed := true, arrived := false
                                memx := if badIn s.dev0 l.addr n then
                                  some (deferredRec codeMEMX p (memLevel l.addr) s.act0.stamp (nextSeq s1)) else none }
          { s2 with act := { s2.act with inflight := s2.act.inflight ++ [f] } }
      else slotTrap s codeLATE p (e.getD 0 + 16 * classNum c)

/-! ### ATOM (R287-R289) -/

/-- The width of an atomic in bits. -/
def atomBits : AtomW → Nat
  | .w32 => 32 | .w64 => 64

/-- The code of an ATOM's kind of access to STAGED bytes: operation and width. -/
def stagedKind (op : AtomOp) (w : Nat) : Nat := 2 + 2 * atomCode op + (if w = 64 then 1 else 0)

/-- The bytes an ATOM of `n` bytes writes: of an x128 container the first 16 (R288). -/
def atomWritten (op : AtomOp) (n : Nat) : Nat := if op = .xadd32 then 16 else n

/-- Whether a sibling writes the grid exponent that an XADD32 reads at bytes 16-19 of its container (R241, R288). -/
def gridRaced (d : Dev) (run : Nat) (st : Stamp) (a : Nat) (op : AtomOp) : Bool :=
  op = .xadd32 && [16, 17, 18, 19].any fun i => siblingDid d run st (fun k => decide (1 ≤ k)) (a + i)

/-- An ATOM on STAGED bytes: siblings may share one operation and width; any other access of a sibling leaves the
bytes unpromised (R241, R289). XADD32 reads the grid exponent and writes the first 16 bytes (R288). -/
def atomStaged (d : Dev) (run : Nat) (st : Stamp) (a : Nat) (op : AtomOp) (w n operand : Nat) : Dev :=
  let kind := stagedKind op w
  let m := atomWritten op n
  let d0 := if op = .xadd32 then (readStaged d.mem d run st (a + 16) 4).2 else d
  let raced := fun x => gridRaced d run st a op || siblingDid d run st (fun k => k != kind) x
  let r := freeRaced raced a (noteStaged d0 run st a m kind) (memReadBytes (atomMem d0.mem a op w operand) a m)
  { r.2 with mem := memWriteBytes r.2.mem a r.1 }

/-- ATOM in each target (R289); `w` is 256 for XADD32. Bytes with an uncorrectable error are MEMX of the slot where they are read at
issue, and pending MEMX where they are read later (R384, log 58). -/
def doAtom (p : Nat) (op : AtomOp) (w n operand : Nat) (s : State) : State :=
  match locate s s.act0 p n n .atom true 0 with
  | .error x => accessTrap s x
  | .ok l =>
    match l.mode with
    | .scratch =>
      if badIn s.dev0 l.addr n then accessTrap s (readError p l)
      else bumpSeq { s with dev := { s.dev with mem := atomMem s.dev.mem l.addr op w operand } }
    | .staged =>
      if badIn s.dev0 l.addr n then accessTrap s (readError p l)
      else bumpSeq { s with dev := atomStaged s.dev (runNum s.act0) s.act0.stamp l.addr op w n operand }
    | .live => bumpSeq (issueLive s s.act0 (nextSeq s) l.addr (.atom op w operand))
    | .ordered =>
      match sendEntry s s.act0 (l.addr / 8 * 8) (p / 8 * 8) (nextSeq s) 0 (.atom op w (l.addr % 8)) operand with
      | some s1 => bumpSeq s1
      | none => stallEntry s

/-- An ATOM of one or two words' width. -/
def atomOp (i : Instr) (op : AtomOp) (a b : SReg) (w : AtomW) (s : State) : Host.Outcome State Fault Refusal :=
  issue i s fun _ s =>
    doAtom (readS s.act0 a).toNat op (atomBits w) (atomBits w / 8) ((readS s.act0 b).toNat % 2 ^ atomBits w) s

/-- ATOM.ADD (R287). -/
def execAtomAdd (k : KSel) (a b : SReg) (w : AtomW) (s : State) : Host.Outcome State Fault Refusal :=
  atomOp (.atomAdd k a b w) .add a b w s
/-- ATOM.MIN (R287). -/
def execAtomMin (k : KSel) (a b : SReg) (w : AtomW) (s : State) : Host.Outcome State Fault Refusal :=
  atomOp (.atomMin k a b w) .min a b w s
/-- ATOM.MAX (R287). -/
def execAtomMax (k : KSel) (a b : SReg) (w : AtomW) (s : State) : Host.Outcome State Fault Refusal :=
  atomOp (.atomMax k a b w) .max a b w s
/-- ATOM.MINN (R287). -/
def execAtomMinn (k : KSel) (a b : SReg) (w : AtomW) (s : State) : Host.Outcome State Fault Refusal :=
  atomOp (.atomMinn k a b w) .minn a b w s
/-- ATOM.MAXN (R287). -/
def execAtomMaxn (k : KSel) (a b : SReg) (w : AtomW) (s : State) : Host.Outcome State Fault Refusal :=
  atomOp (.atomMaxn k a b w) .maxn a b w s
/-- ATOM.AND (R287). -/
def execAtomAnd (k : KSel) (a b : SReg) (w : AtomW) (s : State) : Host.Outcome State Fault Refusal :=
  atomOp (.atomAnd k a b w) .and a b w s
/-- ATOM.OR (R287). -/
def execAtomOr (k : KSel) (a b : SReg) (w : AtomW) (s : State) : Host.Outcome State Fault Refusal :=
  atomOp (.atomOr k a b w) .or a b w s
/-- ATOM.XOR (R287). -/
def execAtomXor (k : KSel) (a b : SReg) (w : AtomW) (s : State) : Host.Outcome State Fault Refusal :=
  atomOp (.atomXor k a b w) .xor a b w s
/-- XADD32 (R287, R288). -/
def execXadd32 (k : KSel) (a b : SReg) (s : State) : Host.Outcome State Fault Refusal :=
  issue (.xadd32 k a b) s fun _ s =>
    doAtom (readS s.act0 a).toNat .xadd32 256 32 ((readS s.act0 b).toNat % 2 ^ 32) s

/-! ### ATOMR (R290, R291) -/

/-- ATOMR in each target (R291); in scratch at once, behind what the lower slots of its bundle have stored there (log 2). -/
def doAtomr (p : Nat) (op : AtomOp) (w operand : Nat) (d : SReg) (t : Tag) (s : State) : State :=
  match locate s s.act0 p (w / 8) (w / 8) .atomr true 0 with
  | .error x => accessTrap s x
  | .ok l =>
    match l.mode with
    | .scratch =>
      let m := memReadNat s.dev.mem l.addr (w / 8)
      awaitLoaded (bumpSeq { s with dev := { s.dev with mem := atomMem s.dev.mem l.addr op w operand } }) (nextSeq s)
        (.s d) (BitVec.ofNat 2048 m) t (w / 8) false [(l, p)]
    | .live =>
      if holdsBack s s.act0 then stall s
      else
        awaitResult (bumpSeq (sendLive s (liveReq s.act0 .slot (nextSeq s) l.addr (.atomr op w operand)))) (.s d) 0 t
          (.liveAtomr (nextSeq s))
    | .ordered =>
      let word := l.addr / 8 * 8
      if !loadSettled s s.act0 l.addr && !readerRoom s.dev word s.act0.stamp s.act0.incarnation then stallLoad s .ordered
      else
        let dv := if loadSettled s s.act0 l.addr then s.dev
          else addReader s.dev word (runNum s.act0) s.act0.stamp s.act0.incarnation
        match sendEntry { s with dev := dv } s.act0 word (p / 8 * 8) (nextSeq s) 0 (.atomr op w (l.addr % 8)) operand with
        | none => stallEntry s
        | some s1 => awaitResult (bumpSeq s1) (.s d) 0 t (.atomr word (nextSeq s))
    | .staged => accessTrap s { code := codePROT, addr := p, info := 0 }

/-- An ATOMR. -/
def atomrOp (i : Instr) (op : State → AtomOp) (d a b : SReg) (w : AtomW) (s : State) :
    Host.Outcome State Fault Refusal :=
  issue i s fun t s =>
    doAtomr (readS s.act0 a).toNat (op s) (atomBits w) ((readS s.act0 b).toNat % 2 ^ atomBits w) d t s

/-- FETCHADD (R290). -/
def execFetchadd (k : KSel) (d a b : SReg) (w : AtomW) (s : State) : Host.Outcome State Fault Refusal :=
  atomrOp (.fetchadd k d a b w) (fun _ => .fetchadd) d a b w s
/-- SWAP (R290). -/
def execSwap (k : KSel) (d a b : SReg) (w : AtomW) (s : State) : Host.Outcome State Fault Refusal :=
  atomrOp (.swap k d a b w) (fun _ => .swap) d a b w s
/-- CAS: its comparand is the old sD (R290). -/
def execCas (k : KSel) (d a b : SReg) (w : AtomW) (s : State) : Host.Outcome State Fault Refusal :=
  atomrOp (.cas k d a b w) (fun s => .cas ((readS s.act0 d).toNat % 2 ^ atomBits w)) d a b w s
/-- FETCHMIN (R290). -/
def execFetchmin (k : KSel) (d a b : SReg) (w : AtomW) (s : State) : Host.Outcome State Fault Refusal :=
  atomrOp (.fetchmin k d a b w) (fun _ => .fetchmin) d a b w s
/-- FETCHMAX (R290). -/
def execFetchmax (k : KSel) (d a b : SReg) (w : AtomW) (s : State) : Host.Outcome State Fault Refusal :=
  atomrOp (.fetchmax k d a b w) (fun _ => .fetchmax) d a b w s

/-! ### The live-memory group (R270, R292-R294) and prefetch (R296) -/

/-- Whether an LDACQ of a word must wait until every party reads what it would find: at device scope or wider whatever that is, and
at any scope where it is a release at device scope or wider (R270). -/
def acquireWaits (d : Dev) (core : Nat) (k : ActKey) (seq a : Nat) (c : Scope) : Bool :=
  d.liveq.any fun q => findsNarrow core k seq a 8 q && (scopeLevel c = 3 || wideRelease q.op)

/-- LDACQ: the core's live lines at its scope go, then the word is read (R243, R270). Behind a FENCE or LDACQ of its bundle it is
itself on its way, and later live accesses wait for it. -/
def execLdacq (k : KSel) (d a : SReg) (c : Scope) (s : State) : Host.Outcome State Fault Refusal :=
  issue (.ldacq k d a c) s fun t s =>
    match locate s s.act0 (readS s.act0 a).toNat 8 8 .liveOnly false 0 with
    | .error x => accessTrap s x
    | .ok l =>
      if liveBlocked s s.dev0 s.act0 || atomPending s.dev0 s.act0.key l.addr 8 then stall s
      else if fenced s.dev s.act0.key then
        let x := liveBytes (coreLines s.dev0 (liveCore s.act0)) s.dev0 (liveCore s.act0) s.act0.key l.addr 8
        awaitResult (bumpSeq (sendLive s (liveReq s.act0 .slot (nextSeq s) l.addr (.acquire c)))) (.s d) (vecOfBytes x) t
          (.acquire (nextSeq s) (readS s.act0 a).toNat (sameBundle s l.addr 8))
      else if acquireWaits s.dev0 (liveCore s.act0) s.act0.key (nextSeq s) l.addr c then stall s
      else
        let s1 := { s with dev := acquireLines s.dev (actCore s.act0) c }
        let x := natOfBytes (liveBytes (coreLines s1.dev (liveCore s.act0)) s.dev0 (liveCore s.act0) s.act0.key l.addr 8)
        awaitLoaded (bumpSeq s1) (nextSeq s) (.s d) (BitVec.ofNat 2048 x) t 8 false [(l, (readS s.act0 a).toNat)]

/-- STREL (R270, R294). -/
def execStrel (k : KSel) (d a : SReg) (c : Scope) (s : State) : Host.Outcome State Fault Refusal :=
  issue (.strel k d a c) s fun _ s =>
    match locate s s.act0 (readS s.act0 a).toNat 8 8 .liveOnly true 0 with
    | .error x => accessTrap s x
    | .ok l => bumpSeq (issueLive s s.act0 (nextSeq s) l.addr (.release (bytesOfNat 8 (readS s.act0 d).toNat) c))

/-- FENCE: it keeps its place among the live accesses on their way, or among the held effects; once its earlier accesses are
performed for its scope the core reads later live bytes anew (R243, R270, R294). -/
def execFence (k : KSel) (c : Scope) (s : State) : Host.Outcome State Fault Refusal :=
  issue (.fence k c) s fun _ s0 =>
    let s := { s0 with act := settleReads s0.act }
    if !holdsBack s s.act0 && !engineLeft s.dev s.act0.key
        && (ownLive s.dev s.act0.key).all (performedTo c (actCore s.act0)) then
      { s with dev := acquireLines s.dev (actCore s.act0) c }
    else issueLive s s.act0 (nextSeq s) 0 (.fence c)

/-- The first byte of a PREF's range in each 64-byte line that it touches. -/
def prefBytes (a n : Nat) : List Nat :=
  if n = 0 then [] else (List.range ((a + n - 1) / 64 + 1 - a / 64)).map fun i => max a ((a / 64 + i) * 64)

/-- The line of one byte is fetched into the issuing core's L1; a byte that would fault, or lies in scratch or ORDERED memory, is
skipped (R296). -/
def prefByte (s : State) (p : Nat) : State :=
  match locate s s.act0 p 1 1 .load false 0 with
  | .ok l => { s with dev := prefLine s.dev (actCore s.act0) (runNum s.act0) l.mode l.addr }
  | .error _ => s

/-- PREF: the lines of its range enter the core's L1, SEQ rises, and no value that a load returns changes (R296). -/
def execPref (k : KSel) (a b : SReg) (s : State) : Host.Outcome State Fault Refusal :=
  issue (.pref k a b) s fun _ s =>
    bumpSeq ((prefBytes (readS s.act0 a).toNat (min ((readS s.act0 b).toNat % 2 ^ 32) 1048576)).foldl prefByte s)

end Sys2Proof.Machine
end

