-- ==== Sys2Proof/Machine/Task.lean ====
section
/-! DEFINITION. SPAWN, SPAWNC, RESOLVE, RESOLVEN, LAUNCH and the push to a queue (R198, R203-R214, R221). -/
namespace Sys2Proof.Machine

/-- ENG with a value that failed (R204). -/
def engValueTrap (s : State) (cause value : Nat) : State :=
  slotTrap s codeENG 0 (cause + value % 2 ^ 56 * 256)

/-! ### SPAWN and SPAWNC (R205-R208) -/

/-- The lowest existing stamp `(inst, task, i)` with `lo ≤ i < hi` (R171, R206). -/
def existingIndex (s : State) (run inst task lo hi : Nat) : Option Nat :=
  ((runActs s run).filter fun a => !isHandler a && a.stamp.inst = inst && a.stamp.task = task
    && decide (lo ≤ a.stamp.index) && decide (a.stamp.index < hi)).foldl
    (fun acc a => match acc with | none => some a.stamp.index | some i => some (min i a.stamp.index)) none

/-- Create `c` children with their share (R198, R206). -/
def makeChildren (s : State) (run task first c : Nat) (arg share : Word) (fac : List Factor) : State :=
  let p := s.act
  let kids := (List.range c).map fun j =>
    let st : Stamp := { inst := p.stamp.inst, task := task, index := first + j }
    { Act.fresh (.ordinary run st) st task arg share with
      factors := p.factors ++ fac, parent := some p.stamp, waitSince := s.dev.cycle }
  { s with
    act := { p with weight := p.weight - BitVec.ofNat 64 c * share }
    dev := { s.dev with others := s.dev.others ++ kids } }

/-- The spawn itself once its operands pass (R206): DUPST, then WEIGHT. -/
def spawnChildren (s : State) (run task first c : Nat) (arg : Word) (fac : List Factor) (use : List SpawnUse) :
    State :=
  if c = 0 then s
  else
    match existingIndex s run s.act.stamp.inst task first (first + c) with
    | some i => slotTrap s codeDUPST 0 (i + task * 2 ^ 24)
    | none =>
      let share := s.act.weight.toNat / 2 / c
      if share = 0 then slotTrap s codeWEIGHT 0 s.act.weight.toNat
      else
        let s1 := makeChildren s run task first c arg (BitVec.ofNat 64 share) fac
        match findRun s1.dev run with
        | some r => { s1 with dev := putRun s1.dev { r with uses := r.uses ++ use } }
        | none => s1

/-- Causes 1 and 2 of R204 with the value that failed (log 66); `none` when the operands pass. The handler task has no ordinary
activation (R379). -/
def spawnCause (r : Run) (a : Act) (word count : Nat) : Option (Nat × Nat) :=
  let task := word % 256
  let first := word / 256 % 2 ^ 24
  match imgTask r.image task with
  | none => some (1, task)
  | some t =>
    if t.handler || task ≤ a.task then some (1, task)
    else if 2 ^ 24 < count then some (2, count)
    else if 2 ^ 24 < first + count then some (2, first + count)
    else none

/-- SPAWN (R206). -/
def execSpawn (k : KSel) (d a b : SReg) (s : State) : Host.Outcome State Fault Refusal :=
  issue (.spawn k d a b) s fun _ s =>
    let word := (readS s.act0 d).toNat
    let count := (readS s.act0 a).toNat
    match actRun s s.act0 with
    | none => engValueTrap s 1 (word % 256)
    | some r =>
      match spawnCause r s.act0 word count with
      | some x => engValueTrap s x.1 x.2
      | none =>
        if word / 2 ^ 32 != 0 then engValueTrap s 3 word
        else spawnChildren s r.num (word % 256) (word / 256 % 2 ^ 24) count (readS s.act0 b) [] []

/-- SPAWNC (R207); of several causes the lowest is reported (log 66). -/
def execSpawnc (k : KSel) (d a b : SReg) (s : State) : Host.Outcome State Fault Refusal :=
  issue (.spawnc k d a b) s fun _ s =>
    let word := (readS s.act0 d).toNat
    let count := (readS s.act0 a).toNat
    match actRun s s.act0 with
    | none => engValueTrap s 1 (word % 256)
    | some r =>
      match spawnCause r s.act0 word count with
      | some x => engValueTrap s x.1 x.2
      | none =>
        let cell := word / 2 ^ 48 % 256
        let p := word / 2 ^ 32 % 256
        let site := word / 2 ^ 40 % 64
        let task := word % 256
        let m := s.act0.stamp.inst
        if word / 2 ^ 56 != 0 || word / 2 ^ 46 % 4 != 0 then engValueTrap s 3 word
        else if (imgCond r.image cell).isNone then engValueTrap s 4 cell
        else
          match cellValue r cell m with
          | some false => s
          | some true => spawnChildren s r.num task (word / 256 % 2 ^ 24) count (readS s.act0 b) [] []
          | none =>
            spawnChildren s r.num task (word / 256 % 2 ^ 24) count (readS s.act0 b) [.spawn cell m p site]
              [{ spawner := s.act0.stamp, cell := cell, inst := m, task := task, site := if p = 0 then some site else none }]

/-! ### RESOLVE and RESOLVEN (R209-R211) -/

/-- The last instant. -/
def lastInstant : Nat := 2 ^ 48 - 1

/-- A resolve reaches its cell, and what follows from it (R176, R187, R188). -/
def applyResolve (s : State) (run cell m : Nat) (outcome : Bool) : State :=
  afterChange (resolveCell s run cell m outcome) run

/-- RESOLVE (`next` false) and RESOLVEN: the checks in the order of R209. One that is not speculative waits at issue for the
release of the effects held before it (R189, R210). -/
def resolveOp (next : Bool) (a b : SReg) (s : State) : State :=
  let x := (readS s.act0 a).toNat
  let cell := x % 256
  let outcome := readS s.act0 b != 0
  let m := s.act0.stamp.inst + (if next then 1 else 0)
  match actRun s s.act0 with
  | none => engValueTrap s 4 x
  | some r =>
    match imgCond r.image cell with
    | none => engValueTrap s 4 x
    | some c =>
      let onClock := match imgTask r.image s.act0.task with
        | some t => (cellClocks r.image cell).contains t.clock
        | none => false
      if x / 256 != 0 then engValueTrap s 4 x
      else if c.ahead && (!next || !onClock) then slotTrap s codePROT cell (m % 2 ^ 48)
      else if lastInstant < m then bumpSeq s
      else if speculative s s.act0 then
        bumpSeq (pushHeld s s.act0.key (heldOf s.act0 (nextSeq s) (.resolve cell m outcome)))
      else if !s.act0.held.isEmpty then stall s
      else if (cellValue r cell m).isSome then slotTrap s codeDUPRES cell m
      else bumpSeq (applyResolve s r.num cell m outcome)

/-- RESOLVE (R209, R210). -/
def execResolve (k : KSel) (a b : SReg) (s : State) : Host.Outcome State Fault Refusal :=
  issue (.resolve k a b) s fun _ s => resolveOp false a b s

/-- RESOLVEN (R209, R210). -/
def execResolven (k : KSel) (a b : SReg) (s : State) : Host.Outcome State Fault Refusal :=
  issue (.resolven k a b) s fun _ s => resolveOp true a b s

/-! ### Pushes (R218-R221) -/

/-- A byte of a packet. -/
def pktByte (p : Packet) (o : Nat) : Nat := natAt p o 1

/-- Whether bytes `[o, o + n)` of a packet are zero. -/
def pktZero (p : Packet) (o n : Nat) : Bool := natAt p o n = 0

/-- Whether a packet's width-override entry `j` keeps its reserved bits zero (R219). -/
def overrideOk (p : Packet) (j : Nat) : Bool :=
  let e := natAt p (24 + 8 * j) 8
  if e / 256 % 2 = 1 then e / 2 ^ 9 % 2 ^ 23 = 0 && e / 2 ^ 57 = 0 else e = 0

/-- Whether a packet's type is valid (R218). -/
def pktTypeOk (p : Packet) : Bool := decide (1 ≤ pktByte p 0) && decide (pktByte p 0 ≤ 6)

/-- Whether the reserved fields of a packet are zero (R218, R219). -/
def pktReservedOk (p : Packet) : Bool :=
  let flags := pktByte p 1
  let k := flags / 16
  flags / 4 % 4 = 0 &&
    (if pktByte p 0 = 3 then
      (List.range 12).all fun j => decide (j < k) || pktZero p (4 + 5 * j) 5
    else k = 0 &&
      (match pktByte p 0 with
      | 1 => pktByte p 10 / 16 = 0 && pktZero p 11 1 && [0, 1, 2, 3].all (overrideOk p) && pktZero p 56 8
      | 2 => pktZero p 4 4 && pktZero p 14 2 && pktZero p 16 48
      | 4 => pktZero p 5 3 && pktZero p 16 48
      | 5 => pktZero p 5 59
      | 6 => pktZero p 4 4 && pktZero p 16 48
      | _ => true))

/-- The queue a handle names, where it is current (R215). -/
def currentQueue (d : Dev) (h : Nat) : Option Queue :=
  d.queues.find? fun q => q.index = h % 65536 && q.live && q.gen.toNat = h / 65536 % 65536

/-- Replace a queue. -/
def putQueue (d : Dev) (q : Queue) : Dev :=
  { d with queues := d.queues.map fun x => if x.index = q.index then q else x }

/-- Push status codes (R221); 3, GONE, is never written. -/
def pushACCEPTED : Nat := 1
def pushSTALE : Nat := 2
def pushFULL : Nat := 4
def pushINVALID : Nat := 5
def pushUNREACHABLE : Nat := 6

/-- Cases 3 to 6 of R221 against this device's queues. -/
def localPush (d : Dev) (h : Nat) (p : Packet) : Nat × Dev :=
  match currentQueue d h with
  | none => (pushSTALE, d)
  | some q =>
    if q.capacity ≤ q.ring.length then (pushFULL, d)
    else if !(pktTypeOk p && pktReservedOk p) then (pushINVALID, d)
    else (pushACCEPTED, putQueue d { q with ring := q.ring ++ [p] })

/-- Whether another device of the domain can be reached: a port of its route is up (R414). -/
def reachable (d : Dev) (dev : Nat) : Bool :=
  d.domain.contains dev && d.routes.any fun r => r.device = dev && r.ports.any fun p =>
    if h : p < 12 then (d.ports[p]).up else false

/-- The agent's write of a status word, a live store with release (R221). -/
def statusReq (k : ActKey) (seq core addr code : Nat) (c : Scope) : LiveReq :=
  { who := k, seq := seq, addr := addr, op := .release (bytesOfNat 8 code) c, core := core, reach := 0, released := false
    unit := .agent, counts := none }

/-- A LAUNCH that a core issued reaches the queue agent (R213), which decides it at the end of the core cycle; with REMOTE = 0 it goes
to this device. -/
def sendLaunch (s : State) (a : Act) (core seq : Nat) (p : Packet) (target : Word) (status : Nat) : State :=
  let t := target.toNat
  let w : LaunchPush :=
    { who := a.key, seq := seq, core := core, device := if t / 2 ^ 38 % 2 = 1 then t / 2 ^ 32 % 64 else s.dev.number
      handle := t % 2 ^ 32, packet := p, status := status }
  { s with dev := { s.dev with pushes := s.dev.pushes ++ [w] } }

/-- The queue agent decides a push (R221): case 2, or cases 3 to 6 here, or the packet leaves for another device. Those of case 1 the
tear-down has dropped. -/
def decidePush (s : State) (w : LaunchPush) : State :=
  if w.device = s.dev.number then
    let r := localPush s.dev w.handle w.packet
    sendLive { s with dev := r.2 } (statusReq w.who w.seq w.core w.status r.1 .device)
  else if reachable s.dev w.device then { s with dev := { s.dev with remote := s.dev.remote ++ [w] } }
  else sendLive s (statusReq w.who w.seq w.core w.status pushUNREACHABLE .system)

/-- The agent decides the pushes that reached it in a core cycle, at its end: a tear-down of the launching run in the same cycle comes
first (R221). -/
def decidePushes (s : State) : State := s.dev.pushes.foldl decidePush { s with dev := { s.dev with pushes := [] } }

/-- LAUNCH (R213). -/
def execLaunch (k : KSel) (d a b : SReg) (s : State) : Host.Outcome State Fault Refusal :=
  issue (.launch k d a b) s fun _ s =>
    let t := readS s.act0 b
    let x := t.toNat
    if x / 2 ^ 39 != 0 || (x / 2 ^ 38 % 2 = 0 && x / 2 ^ 32 % 64 != 0) then engValueTrap s 5 x
    else
      match locate s s.act0 (readS s.act0 a).toNat 64 64 .load false 0 with
      | .error e => accessTrap s e
      | .ok l =>
        match locate s s.act0 (readS s.act0 d).toNat 8 8 .liveOnly true 0 with
        | .error e => accessTrap s e
        | .ok st =>
          if badIn s.dev0 l.addr 64 then accessTrap s (readError (readS s.act0 a).toNat l)
          else match loadNow s l 64 with
          | none => stallLoad s l.mode
          | some (p, s1) =>
            if holdsBack s1 s1.act0 then
              bumpSeq (pushHeld s1 s1.act0.key (heldOf s1.act0 (nextSeq s1) (.launch p t st.addr)))
            else bumpSeq (sendLaunch s1 s1.act0 (actCore s1.act0) (nextSeq s1) p t st.addr)

end Sys2Proof.Machine
end

