-- ==== Sys2Proof/Machine/Engine.lean ====
section
/-! DEFINITION. Copy engines and collectives: CPY, CPYSUM, COLL, their elements, arrival words and completion records
(R234, R271, R272, R324-R335, R415-R424). -/
namespace Sys2Proof.Machine

/-! ### Command blocks (R325, R326) -/

/-- Counts, source strides and destination strides of a block, dimension `d` on. -/
def copyDims (bs : List Byte) (ndim : Nat) : Nat → Nat → Option (List (Nat × Int × Int))
  | 0, _ => some []
  | fuel + 1, d =>
    let c := natAt bs (24 + 4 * d) 4
    let ss := if d = 0 then 0 else sextInt 32 (natAt bs (36 + 4 * d) 4)
    let ds := if d = 0 then 0 else sextInt 32 (natAt bs (48 + 4 * d) 4)
    match copyDims bs ndim fuel (d + 1) with
    | none => none
    | some rest =>
      if d < ndim then (if c = 0 then none else some ((c, ss, ds) :: rest))
      else if c = 0 && ss = 0 && ds = 0 then some rest else none

/-- The elements of a command. -/
def copyTotal (b : CopyBlock) : Nat := b.counts.foldl (· * ·) 1

/-- The block in 64 bytes; `none` where they break R325 or R326. -/
def parseCopy (bs : List Byte) : Option CopyBlock :=
  let ndim := natAt bs 16 1
  let esize := natAt bs 17 1
  let mode := natAt bs 18 1
  match copyDims bs ndim 4 0 with
  | none => none
  | some l =>
    let b : CopyBlock :=
      { src := natAt bs 0 8, dst := natAt bs 8 8, ndim := ndim, esize := esize
        srcLogical := mode % 2 = 1, dstLogical := mode / 2 % 2 = 1
        counts := l.map (·.1), sstr := l.map (·.2.1), dstr := l.map (·.2.2) }
    if 1 ≤ ndim && ndim ≤ 4 && esize ≤ 5 && mode < 4 && natAt bs 19 5 = 0
        && (!b.srcLogical || b.src / 2 ^ 62 = 2) && (!b.dstLogical || b.dst / 2 ^ 62 = 2)
        && copyTotal b * 2 ^ esize ≤ 2 ^ 40 then some b
    else none

/-- The byte offset of element `j` from dimension `d` on (R326). -/
def copyWalk (esize : Nat) : List Nat → List Int → Nat → Nat → Int
  | c :: cs, st :: ss, d, j =>
    (j % c : Nat) * (if d = 0 then ((2 ^ esize : Nat) : Int) else st) + copyWalk esize cs ss (d + 1) (j / c)
  | _, _, _, _ => 0

/-- The byte offset of element `j` on a side (R326). -/
def copyOffset (esize : Nat) (counts : List Nat) (strs : List Int) (j : Nat) : Int := copyWalk esize counts strs 0 j

/-! ### The layout unit (R234) -/

/-- Coordinates of a logical element index, innermost first; the outermost takes what is left. -/
def coordsOf : List Nat → Nat → List Nat
  | [], _ => []
  | [_], i => [i]
  | e :: rest, i => i % max e 1 :: coordsOf rest (i / max e 1)

/-- The row-major index of coordinates, innermost first. -/
def rowMajor : List Nat → List Nat → Nat
  | x :: xs, e :: es => x + e * rowMajor xs es
  | _, _ => 0

/-- The storage offset of a logical element index, in elements (R234); beyond the extents the outermost coordinate takes what is left
(log 49). -/
def storageIndex (t : Tensor) (i : Nat) : Nat :=
  let xs := coordsOf t.exts i
  if t.blocked then
    let br := (t.exts.getD 1 1 + 255) / 256
    let bc := (t.exts.getD 0 1 + 383) / 384
    let h := rowMajor (xs.drop 2) (t.exts.drop 2)
    let x0 := xs.getD 0 0
    let x1 := xs.getD 1 0
    ((h * br + x1 / 256) * bc + x0 / 384) * 98304 + x1 % 256 * 384 + x0 % 384
  else rowMajor xs t.exts

/-- The exact address of an element on one side (R326). A logical offset is converted, one in a block's padding too
(log 49); one that leaves the tensor's field of the pointer raises WIN (R232). -/
def sideAddr (s : State) (a : Act) (ptr : Nat) (logical : Bool) (off : Int) : Except Trapped Int :=
  if !logical then .ok (ptr + off)
  else
    match (actRun s a).bind fun r => imgTensor r.image (ptr / 2 ^ 44 % 4096) with
    | none => .error (winTrap ptr 0)
    | some t =>
      let o : Int := (ptr % 2 ^ 44 : Nat) + off
      let sz := fmt4Width t.fmt / 8
      if o < 0 then .error (winTrap (wrapNat 64 (ptr + off)) 0)
      else
        let st := storageIndex t (o.toNat / sz) * sz + o.toNat % sz
        if 2 ^ 44 ≤ st then .error (winTrap (wrapNat 64 (ptr + off)) 0)
        else .ok ((ptr / 2 ^ 44 * 2 ^ 44 + st : Nat) : Int)

/-! ### Issue (R327, R335) -/

/-- Whether a side's first byte names a target a command may use (R328): `w` for the destination. -/
def copyTarget (s : State) (a : Act) (ptr : Nat) (w ordered : Bool) : Bool :=
  match ptr / 2 ^ 62 with
  | 0 => true
  | 1 => true
  | 2 => match (actRun s a).bind fun r => imgTensor r.image (ptr / 2 ^ 44 % 4096) with
    | some t => t.order != .ordered || (w && ordered)
    | none => true
  | _ => false

/-- An arrival-word or record pointer: WIN and XLAT are raised as themselves, every other failure is cause 7
(R327). -/
def enginePtr (s : State) (p n : Nat) : Except Trapped (Option Located) :=
  match locate s s.act0 p n 1 .liveOnly true 0 with
  | .error t => if t.code = codeWIN || t.code = codeXLAT then .error t else .ok none
  | .ok l => if p % n = 0 then .ok (some l) else .ok none

/-- The memory an activation's own live accesses have led to, held ones included: what it finds in an arrival word. -/
def ownView (s : State) (a : Act) : List Host.Cell :=
  let m := (ownLive s.dev a.key).foldl (fun m q => performOp m q.addr q.op) s.dev.mem
  a.held.foldl (fun m h => match h.op with | .live x op => performOp m x op | _ => m) m

/-- Whether an access writes the whole of TARGET of the arrival word at `w` (R329). -/
def setsTarget (w addr : Nat) : LiveOp → Bool
  | .store bs => decide (addr ≤ w + 8) && decide (w + 14 ≤ addr + bs.length)
  | .release bs _ => decide (addr ≤ w + 8) && decide (w + 14 ≤ addr + bs.length)
  | _ => false

/-- Whether the activation itself has written TARGET, so that no lower phase's store decides what it finds there. -/
def ownTarget (s : State) (a : Act) (w : Nat) : Bool :=
  (ownLive s.dev a.key).any (fun q => setsTarget w q.addr q.op)
    || a.held.any fun h => match h.op with | .live x op => setsTarget w x op | _ => false

/-- Whether the slot in issue may read TARGET of an arrival word: as a load of live memory it waits for the ridge and behind a FENCE,
but a speculative activation may count on a TARGET that it has written itself (R1, R189, R270). -/
def targetKnown (s : State) (w : Nat) : Bool :=
  if speculative s s.act0 then ownTarget (before s) s.act0 w
  else !liveBlocked s s.dev0 s.act0 && !fencedNow s

/-- The die of a core, whose queue takes its commands. -/
def queueDie (core : Nat) : Nat := dieOf core % 4

/-- The die whose queue takes the command. -/
def actDie (a : Act) : Nat := queueDie (actCore a)

/-- Entries in a die's command queue, those of the commands its engines run among them (R324, R415; log 49). -/
def dieQueue (d : Dev) (die : Nat) : Nat :=
  (if h : die < 4 then (d.copies[die]).length else 0) + (d.colls.filter fun c => c.die = die).length

/-- A command's use of its arrival word begins (R271). -/
def beginUse (d : Dev) (a : Act) (seq arrival size : Nat) : Dev :=
  match stampOfKey a.key with
  | some x => { d with engineUses := d.engineUses ++
      [{ run := x.1, stamp := x.2, seq := seq, arrival := arrival, size := size, counted := 0, covered := 0, seen := [] }] }
  | none => d

/-- Put a copy command into a die's queue. -/
def pushCopy (d : Dev) (die : Nat) (c : CopyCmd) : Dev :=
  if h : die < 4 then { d with copies := d.copies.set die (d.copies[die] ++ [c]) h } else d

/-- CPY and CPYSUM once the block is read (R327). -/
def issueCopy (w : Nat) (rec : Option Nat) (s0 s : State) (bs : List Byte) : State :=
  match parseCopy bs with
  | none => engTrap s0 6
  | some b =>
    match enginePtr s0 w 16 with
    | .error t => accessTrap s0 t
    | .ok aw =>
      match (match rec with | some r => enginePtr s0 r 32 | none => .ok none) with
      | .error t => accessTrap s0 t
      | .ok rl =>
        match aw with
        | none => engTrap s0 7
        | some al =>
          if rec.isSome && rl.isNone then engTrap s0 7
          else if !targetKnown s0 al.addr then stall s0
          else if badIn s0.dev al.addr 16 then accessTrap s0 (readError w al)
          else if targetOf (ownView (before s0) s0.act0) al.addr = 0 then engTrap s0 7
          else if !copyTarget s0 s0.act0 b.src false false || !copyTarget s0 s0.act0 b.dst true true then engTrap s0 8
          else if 64 ≤ dieQueue s0.dev (actDie s0.act0) then stall s0
          else
            let c : CopyCmd :=
              { who := s.act0.key, stamp := s.act0.stamp, seq := nextSeq s, core := actCore s.act0, block := b
                arrival := al.addr, record := rl.map (·.addr), done := 0, crc := 2 ^ 64 - 1, delivered := 0
                uncounted := 0, failed := none, started := false, closing := false, took := none, raised := false }
            bumpSeq { s with dev := beginUse (pushCopy s.dev (actDie s.act0) c) s.act0 (nextSeq s) al.addr (2 ^ b.esize) }

/-- The 64-byte block of an engine command, then what follows. -/
def withBlock (a : SReg) (s : State) (f : State → State → List Byte → State) : State :=
  match locateRead s s.act0 (readS s.act0 a).toNat 64 64 .load with
  | .error t => accessTrap s t
  | .ok l =>
    match loadNow s l 64 with
    | none => stallLoad s l.mode
    | some (bs, s1) => f s s1 bs

/-- CPY (R324, R327). -/
def execCpy (k : KSel) (a b : SReg) (s : State) : Host.Outcome State Fault Refusal :=
  issue (.cpy k a b) s fun _ s =>
    withBlock a s (issueCopy (readS s.act0 b).toNat none)

/-- CPYSUM (R324, R327). -/
def execCpysum (k : KSel) (d a b : SReg) (s : State) : Host.Outcome State Fault Refusal :=
  issue (.cpysum k d a b) s fun _ s =>
    withBlock a s (issueCopy (readS s.act0 b).toNat (some (readS s.act0 d).toNat))

/-! ### Arrival words and records (R329-R332) -/

/-- The stamp part of a completion record, bytes 16-31 (R331, R422). -/
def recordTail (st : Stamp) (seq : Nat) : List Byte :=
  bytesOfNat 6 st.inst ++ bytesOfNat 1 st.task ++ bytesOfNat 3 st.index ++ bytesOfNat 4 seq ++ bytesOfNat 2 0

/-- One bit of CRC-64 (R332). -/
def crcBit (c : Nat) : Nat := if c % 2 = 1 then Nat.xor (c / 2) 0xC96C5795D7870F42 else c / 2

/-- CRC-64 of one more byte (R332). -/
def crcByte (c : Nat) (x : Byte) : Nat :=
  crcBit (crcBit (crcBit (crcBit (crcBit (crcBit (crcBit (crcBit (Nat.xor c x.toNat))))))))

/-- The final exclusive or of CRC-64 (R332). -/
def crcFinal (c : Nat) : Nat := Nat.xor c (2 ^ 64 - 1)

/-- A CPYSUM record (R331). -/
def copyRecord (c : CopyCmd) : List Byte :=
  let code := match c.failed with | some x => x.1 | none => 0
  bytesOfNat 8 (if c.failed.isSome then 0 else crcFinal c.crc) ++ bytesOfNat 6 c.delivered ++ bytesOfNat 2 code
    ++ recordTail c.stamp c.seq

/-! ### COPY_ENGINE_ELEMENT (R326-R334) -/

/-- Replace or remove the command `n` of a die's queue. -/
def setCopy (d : Dev) (die : Fin 4) (n : Nat) (c : Option CopyCmd) : Dev :=
  let q := d.copies[die.val]
  let q1 := match c with | some x => q.set n x | none => q.eraseIdx n
  { d with copies := d.copies.set die.val q1 }

/-- Whether the live accesses of a command with this SEQ are held back: its activation is speculative, or effects of lower SEQ
are still held, or a FENCE or LDACQ before the command has not passed (R189, R270, R333). -/
def engineHeld (s : State) (a : Act) (seq : Nat) : Bool :=
  speculative s a || a.held.any (fun h => decide (h.seq ≤ seq)) || fencedAt s.dev a.key seq

/-- Whether a command must wait for an atomic its activation issued before it on a word of `[addr, addr + n)`. -/
def behindAtomic (s : State) (a : Act) (seq addr n : Nat) : Bool :=
  (ownLive s.dev a.key).any fun q => decide (q.seq < seq) && touchesWords q addr n && match q.op with
    | .atom _ _ _ => true | .atomr _ _ _ => true | _ => false

/-- Bytes an engine reads for its command: live ones at their home, the activation's own earlier stores included
(R271, R328). -/
def engineRead (s : State) (a : Act) (seq : Nat) (l : Located) (n : Nat) : List Byte × State :=
  match l.mode with
  | .live =>
    (memReadBytes (ownBefore s.dev a.key seq s.dev.mem) l.addr n, s)
  | _ => (readAt s s.dev a l n).getD ([], s)

/-- A live access of an engine for the command with this SEQ at the arrival word `w`: with the command's bytes up to and with it
(R271, R272). -/
def engineReq (a : Act) (seq w upto addr : Nat) (op : LiveOp) : LiveReq :=
  { liveReq a .engine seq addr op with counts := some (w, upto) }

/-- Live writes of an engine set out for their home, each word on its own (R268, R271). -/
def sendEngine (s : State) (a : Act) (seq w upto addr : Nat) (bs : List Byte) : State :=
  (wordPieces (bs.length + 1) addr bs).foldl (fun s p => sendLive s (engineReq a seq w upto p.1 (.store p.2))) s

/-- Bytes an engine writes for its command, with the command's SEQ and the element's number as lane (R271, R328). `none`: the
element must wait. -/
def engineWrite (s : State) (a : Act) (seq w lane ptr : Nat) (l : Located) (bs : List Byte) : Option State :=
  match l.mode with
  | .live => some (sendEngine s a seq w ((lane + 1) * bs.length) l.addr bs)
  | _ => writeAt s a l ptr seq lane bs

/-- What one element comes to: `took`, a live source element of more than one word has been read and is still to be written
(R268). -/
inductive ElemResult where
  | done (bytes : List Byte)
  | took (bytes : List Byte)
  | waits
  | failed (code addr : Nat)
  deriving DecidableEq, Repr

/-- An element's place on one side, faults as the element's own (R330). -/
def elemPlace (s : State) (a : Act) (ptr : Nat) (logical : Bool) (off : Int) (n : Nat) (w : Bool) :
    State × Except Trapped (Located × Int) :=
  match sideAddr s a ptr logical off with
  | .error t => (s, .error t)
  | .ok addr =>
    match locateServed s a addr n n (if w then .store else .load) w with
    | (s1, .error t) => (s1, .error t)
    | (s1, .ok l) => (s1, .ok (l, addr))

/-- Whether one side of a command has an element on the device byte `x`: `w` the destination. -/
def sideHas (s : State) (a : Act) (b : CopyBlock) (w : Bool) (x : Nat) : Bool :=
  let n := 2 ^ b.esize
  (List.range (copyTotal b)).any fun j =>
    match (if w then sideAddr s a b.dst b.dstLogical (copyOffset b.esize b.counts b.dstr j)
        else sideAddr s a b.src b.srcLogical (copyOffset b.esize b.counts b.sstr j)) with
    | .error _ => false
    | .ok addr => match locate s a addr n n (if w then .store else .load) w 0 with
      | .error _ => false
      | .ok l => decide (l.addr ≤ x) && decide (x < l.addr + n)

/-- Bytes at an address, those that lie on the command's other side too replaced by free bytes: nothing is promised of bytes that
are both source and destination (R326). -/
def freeShared (s : State) (a : Act) (b : CopyBlock) (w : Bool) (addr : Nat) (bs : List Byte) : List Byte × State :=
  let r := freeRaced (sideHas s a b w) addr s.dev bs
  (r.1, { s with dev := r.2 })

/-- One element of a copy command (R326, R328). -/
def copyElem (s : State) (a : Act) (c : CopyCmd) : State × ElemResult :=
  let b := c.block
  let n := 2 ^ b.esize
  match elemPlace s a b.src b.srcLogical (copyOffset b.esize b.counts b.sstr c.done) n false with
  | (s1, .error t) => (s1, .failed t.code t.addr)
  | (s1, .ok (l, la)) =>
    if l.mode = .ordered then (s1, .failed codePROT (wrapNat 64 la))
    else if badIn s1.dev l.addr n then (s1, .failed codeMEMX (wrapNat 64 la))
    else
      match elemPlace s1 a b.dst b.dstLogical (copyOffset b.esize b.counts b.dstr c.done) n true with
      | (s2, .error t) => (s2, .failed t.code t.addr)
      | (s2, .ok (m, ma)) =>
        if (l.mode = .live || m.mode = .live) && engineHeld s2 a c.seq then (s2, .waits)
        else if l.mode = .live && behindAtomic s2 a c.seq l.addr n then (s2, .waits)
        else if (l.mode = .scratch || m.mode = .scratch) && a.place.isNone then (s2, .waits)
        else
          let (raw, s3) := match c.took with | some x => (x, s2) | none => engineRead s2 a c.seq l n
          if l.mode = .live && decide (8 < n) && c.took.isNone then (s3, .took raw)
          else
          let (bs, s4) := freeShared s3 a b true l.addr raw
          let (out, s5) := freeShared s4 a b false m.addr bs
          match engineWrite s5 a c.seq c.arrival c.done (wrapNat 64 ma) m out with
          | none => (s2, .waits)
          | some s6 => (s6, .done bs)

/-- Add a deferred trap to an activation that still exists. -/
def deferTo (s : State) (k : ActKey) (r : TrapRec) : State :=
  match findAct s k with
  | some a => putAct s (addDeferred a r)
  | none => s

/-- An update of an arrival word sets out for its home (R272, R329). -/
def sendCount (s : State) (a : Act) (seq arrival n : Nat) : State :=
  if n = 0 then s else sendLive s (liveReq a .engine seq arrival (.count n))

/-- STATUS of a failed command, and its completion record, set out for their homes (R330, R331). -/
def sendEnd (s : State) (a : Act) (seq arrival : Nat) (code : Option Nat) (rec : Option (Nat × List Byte)) : State :=
  let s1 := match code with | some x => sendLive s (engineReq a seq arrival 0 arrival (.status x)) | none => s
  match rec with | some r => sendEngine s1 a seq arrival 0 r.1 r.2 | none => s1

/-- ENG with cause 12 of a failed command (R330). -/
def raiseFailed (s : State) (c : CopyCmd) : State :=
  match c.failed with
  | some x => deferTo s c.who (deferredRec codeENG x.2 (12 + 256 * x.1) c.stamp c.seq)
  | none => s

/-- A command with no element left: STATUS and record once, then its last updates, then its engine is free (R330, R331).
Its live writes wait while they are held (R333); the trap of a failed one does not, and a speculative activation holds that (R190,
R330). -/
def finishCopy (s : State) (die : Fin 4) (n : Nat) (a : Act) (c : CopyCmd) : State :=
  if engineHeld s a c.seq then
    if c.failed.isSome && speculative s a && !c.raised then
      let s1 := raiseFailed s c
      { s1 with dev := setCopy s1.dev die n (some { c with raised := true }) }
    else s
  else if !c.closing then
    let s1 := sendEnd s a c.seq c.arrival (c.failed.map (·.1)) (c.record.map fun r => (r, copyRecord c))
    { s1 with dev := setCopy s1.dev die n (some { c with closing := true }) }
  else
    let u := min c.uncounted 256
    let s1 := sendCount s a c.seq c.arrival u
    if c.uncounted ≤ 256 then
      let s2 := { s1 with dev := setCopy s1.dev die n none }
      if c.raised then s2 else raiseFailed s2 c
    else { s1 with dev := setCopy s1.dev die n (some { c with uncounted := c.uncounted - u }) }

/-- Count 256 of the bytes written so far once there are as many (log 49), unless live writes are
held or the element was the command's last (R329, R331, R333). -/
def countSome (s : State) (a : Act) (c : CopyCmd) : State × CopyCmd :=
  if engineHeld s a c.seq || c.done = copyTotal c.block || c.uncounted < 256 then (s, c)
  else (sendCount s a c.seq c.arrival 256, { c with uncounted := c.uncounted - 256 })

/-- Whether the earlier commands of an activation have started, whichever die has them (R324). -/
def earlierStarted (d : Dev) (k : ActKey) (seq : Nat) : Bool :=
  d.copies.toList.flatten.all fun x => x.who != k || decide (seq ≤ x.seq) || x.started

/-- Whether a command runs on one of its die's four engines, or may start on a free one (R324). -/
def mayStart (d : Dev) (die : Fin 4) (c : CopyCmd) : Bool :=
  c.started || (earlierStarted d c.who c.seq && decide ((d.copies[die.val].filter (·.started)).length < 4))

/-- COPY_ENGINE_ELEMENT: command `n` of a die's queue performs its next element, or finishes. -/
def execCopyEngineElement (die : Fin 4) (n : Nat) (s : State) : Host.Outcome State Fault Refusal :=
  .next (match s.dev.copies[die.val][n]? with
    | none => s
    | some c =>
      match findAct s c.who with
      | none => s
      | some a =>
        let total := copyTotal c.block
        if !mayStart s.dev die c then s
        else if c.failed.isSome || total ≤ c.done then finishCopy s die n a c
        else
          match copyElem s a { c with started := true } with
          | (s1, .waits) => { s1 with dev := setCopy s1.dev die n (some { c with started := true }) }
          | (s1, .took bs) => { s1 with dev := setCopy s1.dev die n (some { c with started := true, took := some bs }) }
          | (s1, .failed code addr) =>
            let left := (total - c.done) * 2 ^ c.block.esize
            { s1 with dev := setCopy s1.dev die n (some
              { c with started := true, failed := some (code, addr), uncounted := c.uncounted + left, took := none }) }
          | (s1, .done bs) =>
            let c1 := { c with
              started := true, done := c.done + 1, delivered := c.delivered + bs.length, uncounted := c.uncounted + bs.length
              took := none, crc := bs.foldl crcByte c.crc }
            let (s2, c2) := countSome s1 a c1
            { s2 with dev := setCopy s2.dev die n (some c2) })

/-- Bytes with those of word `i` replaced. -/
def putWordBytes (bs : List Byte) (size i : Nat) (w : List Byte) : List Byte :=
  bs.take (size * i) ++ w ++ bs.drop (size * i + size)

/-- Word `i` of the element a copy command has taken is read only now: the words of an engine's access are read each on its own, in
no promised order (R268). -/
def rereadCopy (die : Fin 4) (n i : Nat) (s : State) : State :=
  match s.dev.copies[die.val][n]? with
  | none => s
  | some c => match findAct s c.who, c.took with
    | some a, some bs =>
      let b := c.block
      match (elemPlace s a b.src b.srcLogical (copyOffset b.esize b.counts b.sstr c.done) (2 ^ b.esize) false).2 with
      | .ok (l, _) =>
        if l.mode = .live && decide (8 * i + 8 ≤ bs.length) && !badIn s.dev l.addr (2 ^ b.esize) then
          let w := memReadBytes (ownBefore s.dev a.key c.seq s.dev.mem) (l.addr + 8 * i) 8
          { s with dev := setCopy s.dev die n (some { c with took := some (putWordBytes bs 8 i w) }) }
        else s
      | .error _ => s
    | _, _ => s

/-! ### COLL (R415-R424) -/

/-- The members of a group. -/
def members (g : Nat) : List Nat := (List.range 64).filter fun i => bitOf g i

/-- The rank of a device (R416). -/
def rankOf (g dev : Nat) : Nat := ((members g).filter fun m => decide (m < dev)).length

/-- The block of a COLL; `none` where it breaks R416. -/
def parseColl (bs : List Byte) : Option CollBlock :=
  let b : CollBlock :=
    { op := natAt bs 0 1, type := natAt bs 1 1, mode := natAt bs 2 1, redop := natAt bs 3 1, root := natAt bs 4 1
      group := natAt bs 8 8, src := natAt bs 16 8, dst := natAt bs 24 8, count := natAt bs 32 8 % 2 ^ 48
      tag := natAt bs 40 4 }
  let isInt := b.type = 2 || b.type = 3
  let moves := b.op = 2 || b.op = 3
  if b.op ≤ 3 && (isInt || b.type = 9 || b.type = 10 || b.type = 11 || b.type = 14)
      && b.mode ≤ 1 && (b.mode = 0 || !(b.type = 14 || moves))
      && b.redop ≤ 2 && (b.redop = 0 || (isInt && !moves))
      && (if b.op = 3 then (members b.group).contains b.root else b.root = 0)
      && natAt bs 5 3 = 0 && natAt bs 38 2 = 0 && natAt bs 44 20 = 0
      && (b.op != 1 || ((members b.group).length != 0 && b.count % (members b.group).length = 0)) then some b
  else none

/-- The commands of a key entered since the last RESET (R417). -/
def keyCount (d : Dev) (group tag : Nat) : Nat :=
  match d.collCounts.find? fun x => x.1 = (group, tag) with | some x => x.2 | none => 0

/-- The element size of a TYPE. -/
def collSize (t : Nat) : Nat := match fmt4OfCode t with | some f => fmt4Width f / 8 | none => 1

/-- A COLL enters the queue of the die of the core that issued it (R324, R415), and is counted under its key (R417). -/
def enterColl (s : State) (a : Act) (core seq : Nat) (b : CollBlock) (w : Nat) (rec : Option Nat) : State :=
  let n := keyCount s.dev b.group b.tag
  { s with dev := beginUse { s.dev with
    collCounts := (s.dev.collCounts.filter fun x => x.1 != (b.group, b.tag)) ++ [((b.group, b.tag), n + 1)]
    colls := s.dev.colls ++
      [{ who := a.key, stamp := a.stamp, seq := seq, die := queueDie core, core := core, block := b, arrival := w
         record := rec, ordinal := n, peers := [], took := none }] } a seq w (collSize b.type) }

/-- Whether a command with the key is in flight on this device (R417, R424). -/
def keyInFlight (d : Dev) (b : CollBlock) : Bool :=
  d.colls.any fun c => c.block.group = b.group && c.block.tag = b.tag

/-- Whether a command with the key is in flight, or the activation holds one back (R415). -/
def keyTaken (d : Dev) (a : Act) (b : CollBlock) : Bool :=
  keyInFlight d b || a.held.any fun h => match h.op with
    | .coll c _ _ => c.group = b.group && c.tag = b.tag
    | _ => false

/-- COLL once its block is read: the checks in the order of R424. What lower phases may still change, TARGET and whether the key is in
flight, is judged once the activation is non-speculative (R1). -/
def issueColl (w : Nat) (rec : Option Nat) (s0 s : State) (bs : List Byte) : State :=
  match parseColl bs with
  | none => engTrap s0 6
  | some b =>
    let ms := members b.group
    if !ms.contains s0.dev.number || !ms.all (fun m => s0.dev.domain.contains m) then engTrap s0 17
    else
      match enginePtr s0 w 16 with
      | .error t => accessTrap s0 t
      | .ok aw =>
        match (match rec with | some r => enginePtr s0 r 32 | none => .ok none) with
        | .error t => accessTrap s0 t
        | .ok rl =>
          match aw with
          | none => engTrap s0 7
          | some al =>
            if rec.isSome && rl.isNone then engTrap s0 7
            else if !targetKnown s0 al.addr then stall s0
            else if badIn s0.dev al.addr 16 then accessTrap s0 (readError w al)
            else if targetOf (ownView (before s0) s0.act0) al.addr = 0 then engTrap s0 7
            else if !copyTarget s0 s0.act0 b.src false false || !copyTarget s0 s0.act0 b.dst true false then
              engTrap s0 8
            else if keyTaken s0.dev s0.act0 b then
              (if holdsBack s s.act0 then stall s0 else engTrap s0 18)
            else if holdsBack s s.act0 then
              pushHeld s s.act0.key (heldOf s.act0 (nextSeq s) (.coll b al.addr (rl.map (·.addr))))
            else if 64 ≤ dieQueue s0.dev (actDie s0.act0) then stall s0
            else bumpSeq (enterColl s s.act0 (actCore s.act0) (nextSeq s) b al.addr (rl.map (·.addr)))

/-- COLL: with D = 0 it writes no record (R415). -/
def execColl (k : KSel) (d a b : SReg) (s : State) : Host.Outcome State Fault Refusal :=
  issue (.coll k d a b) s fun _ s =>
    withBlock a s (issueColl (readS s.act0 b).toNat (if d = 0 then none else some (readS s.act0 d).toNat))

/-! ### Reduction (R418-R421) -/

/-- The floating-point format of a TYPE. -/
def collFmt (t : Nat) : FFmt := match t with | 9 => fmtBF16 | 11 => fmtF64 | _ => fmtF32

/-- Integer reduction (R420). -/
def reduceInt (w redop : Nat) (l : List Nat) : Nat :=
  match l with
  | [] => 0
  | x :: rest => rest.foldl (fun r y =>
      match redop with
      | 1 => if sextInt w r < sextInt w y then y else r
      | 2 => if sextInt w y < sextInt w r then y else r
      | _ => (r + y) % 2 ^ w) x

/-- EXACT reduction of floating-point contributions (R419). -/
def reduceExact (f : FFmt) (l : List Nat) : FRes :=
  let vs := l.map (decodeF f)
  let e := vs.foldl (fun acc v => maxOpt acc (log2Val v)) none
  let E := match e with | some x => x - 99 | none => 0
  let s := vs.foldl (fun s v => addTerm 125 E s (some v)) { v := 0, sp := { } }
  readout 125 f .rne s E

/-- ARRIVAL reduction (R421): the rounding device's contribution first. -/
def reduceArrival (f : FFmt) (l : List Nat) : FRes :=
  match l with
  | [] => (0, noFlags)
  | x :: rest =>
    let first : FRes := match propagateNaN f [x] with | some y => y | none => (x, noFlags)
    rest.foldl (fun r y => let q := fAdd f .rne r.1 y; (q.1, orFlags r.2 q.2)) first

/-- EXACT reduction of x128 contributions; `none` where E disagree (R420). -/
def reduceX128 (l : List Nat) : Option Nat :=
  match l.map x128OfNat with
  | [] => some 0
  | x :: rest => if rest.all (fun y => y.e = x.e) then some (natOfX128 (rest.foldl addX128 x)) else none

/-- One element of a reduction; `none` is cause 3. -/
def reduceElem (b : CollBlock) (l : List Nat) : Option FRes :=
  match b.type with
  | 2 => some (reduceInt 32 b.redop l, noFlags)
  | 3 => some (reduceInt 64 b.redop l, noFlags)
  | 14 => (reduceX128 l).map fun x => (x, noFlags)
  | t => some (if b.mode = 1 then reduceArrival (collFmt t) l else reduceExact (collFmt t) l)

/-- The device that rounds element `j` (R418). -/
def roundingDevice (b : CollBlock) (j : Nat) : Nat :=
  let ms := members b.group
  match b.op with
  | 1 => ms.getD (j / max 1 (b.count / max 1 ms.length)) 0
  | _ => ms.headD 0

/-- A contribution: its device, its bytes and the times at which its elements arrived (R421). -/
structure Contribution where
  device : Nat
  src : List Byte
  times : List Nat
  deriving DecidableEq, Repr

/-- The contributions in the order of the commands' arrival: a peer entry with this device's own number says when its own
contribution arrived; without one it comes last. -/
def arrivalOrder (own : Nat) (src : List Byte) (peers : List PeerCmd) : List Contribution :=
  let l := peers.map fun p => { device := p.device, src := if p.device = own then src else p.src, times := p.times }
  if peers.any fun p => p.device = own then l else l ++ [{ device := own, src := src, times := [] }]

/-- Insert a contribution by the time at which its element `j` arrived, after those of the same time. -/
def insertArrival (j : Nat) (x : Contribution) : List Contribution → List Contribution
  | [] => [x]
  | y :: rest => if x.times.getD j 0 < y.times.getD j 0 then x :: y :: rest else y :: insertArrival j x rest

/-- The contributions in the order in which their elements `j` arrived (R421). -/
def byArrival (j : Nat) (l : List Contribution) : List Contribution := l.foldl (fun acc x => insertArrival j x acc) []

/-- Element `j` of every contribution: the rounding device's first, the others as they arrived. -/
def elemsOf (b : CollBlock) (l : List Contribution) (j : Nat) : List Nat :=
  let n := collSize b.type
  let r := roundingDevice b j
  let o := byArrival j l
  ((o.filter fun x => x.device = r).map fun x => natAt x.src (j * n) n)
    ++ ((o.filter fun x => x.device != r).map fun x => natAt x.src (j * n) n)

/-- A matched command's result for this member, and the flags of the roundings this device performed; `none` is
cause 3 (R418-R421). -/
def collResult (own : Nat) (b : CollBlock) (l : List Contribution) : Option (List Byte × Flags) :=
  let n := collSize b.type
  let ms := members b.group
  let bytesOf := fun d => match l.find? (fun x => x.device = d) with | some x => x.src | none => []
  match b.op with
  | 2 => some (ms.flatMap fun m => (bytesOf m).take (b.count * n), noFlags)
  | 3 => some ((bytesOf b.root).take (b.count * n), noFlags)
  | op =>
    let all := (List.range b.count).map fun j => (j, reduceElem b (elemsOf b l j))
    if all.any (fun x => x.2.isNone) then none
    else
      let mine := if op = 1 then
          let per := b.count / max 1 ms.length
          all.filter fun x => decide (rankOf b.group own * per ≤ x.1) && decide (x.1 < (rankOf b.group own + 1) * per)
        else all
      let fl := (all.filter fun x => roundingDevice b x.1 = own).foldl
        (fun f x => orFlags f (x.2.getD (0, noFlags)).2) noFlags
      some (mine.flatMap fun x => bytesOfNat n (x.2.getD (0, noFlags)).1, fl)

/-! ### COLLECTIVE_MATCH, COLLECTIVE_COMPLETE, COLLECTIVE_FAILURE -/

/-- What a member reports after its command has matched: its run is torn down, or an element access of it faults (R423). -/
def peerReport (q p : PeerCmd) : PeerCmd := { q with torn := q.torn || p.torn, failed := q.failed <|> p.failed }

/-- COLLECTIVE_MATCH: a member's matching command and contribution arrive: the command of the same number under the same key
(R413, R417). Of a member that has matched it is a report of what has become of the command since (R423). -/
def execCollectiveMatch (n : Nat) (p : PeerCmd) (s : State) : Host.Outcome State Fault Refusal :=
  .next (match s.dev.colls[n]? with
    | none => s
    | some c =>
      if !(members c.block.group).contains p.device
          || p.group != c.block.group || p.tag != c.block.tag || p.ordinal != c.ordinal then s
      else if c.peers.any (fun q => q.device = p.device) then
        { s with dev := { s.dev with colls := s.dev.colls.set n { c with
            peers := c.peers.map fun q => if q.device = p.device then peerReport q p else q } } }
      else { s with dev := { s.dev with colls := s.dev.colls.set n { c with peers := c.peers ++ [p] } } })

/-- Whether every other member's command has arrived. -/
def allArrived (own : Nat) (c : CollCmd) : Bool :=
  (members c.block.group).all fun m => m = own || c.peers.any fun p => p.device = m

/-- Read `n` bytes of a contribution, element by element (R416, R328). -/
def readContribution (a : Act) (seq ptr esz : Nat) : Nat → Nat → State → State × Except Trapped (List Byte)
  | 0, _, s => (s, .ok [])
  | n + 1, i, s =>
    match locateServed s a (ptr + i * esz) esz esz .load false with
    | (s1, .error t) => (s1, .error t)
    | (s1, .ok l) =>
      if badIn s1.dev l.addr esz then (s1, .error { code := codeMEMX, addr := ptr + i * esz, info := 0 })
      else
      let (bs, s2) := engineRead s1 a seq l esz
      match readContribution a seq ptr esz n (i + 1) s2 with
      | (s3, .ok rest) => (s3, .ok (bs ++ rest))
      | (s3, .error t) => (s3, .error t)

/-- Write a result, element by element; the first failure ends it, with the number of elements before it. -/
def writeResult (a : Act) (seq w ptr esz : Nat) : Nat → Nat → List Byte → State → State × Option (Trapped × Nat)
  | 0, _, _, s => (s, none)
  | n + 1, i, bs, s =>
    match locateServed s a (ptr + i * esz) esz esz .store true with
    | (s1, .error t) => (s1, some (t, i))
    | (s1, .ok l) =>
      let s2 := (engineWrite s1 a seq w i (ptr + i * esz) l (bs.take esz)).getD s1
      writeResult a seq w ptr esz n (i + 1) (bs.drop esz) s2

/-- Bytes this member receives in DST (R418). -/
def collBytes (b : CollBlock) : Nat :=
  let n := collSize b.type
  let g := (members b.group).length
  match b.op with
  | 1 => b.count / max 1 g * n
  | 2 => g * b.count * n
  | _ => b.count * n

/-- How a matched command ends (R418, R422, R423): its result, or cause, status code and element address, with the bytes delivered
before the failure and the flags of the roundings performed. -/
inductive CollEnd where
  | done (bytes : List Byte) (flags : Flags)
  | failed (cause code addr delivered : Nat) (flags : Flags)
  deriving DecidableEq, Repr

/-- A failure before anything was rounded or delivered. -/
def CollEnd.early (cause code addr : Nat) : CollEnd := .failed cause code addr 0 noFlags

/-- Whether a member cannot be reached, or its run has been torn down (R414, R423, cause 2). -/
def memberGone (d : Dev) (c : CollCmd) : Bool :=
  (members c.block.group).any fun m => m != d.number && (!reachable d m || c.peers.any fun p => p.device = m && p.torn)

/-- Whether a peer's command agrees with this device's (R423, cause 1). -/
def agrees (own : Nat) (b : CollBlock) (p : PeerCmd) : Bool :=
  p.device = own || (p.op = b.op && p.type = b.type && p.mode = b.mode && p.redop = b.redop && p.root = b.root
    && p.count = b.count)

/-- This device's contribution: as taken, or read now; every member of a broadcast reads its SRC, the root or not (log 59). -/
def contribution (a : Act) (c : CollCmd) (s : State) : State × Except Trapped (List Byte) :=
  match c.took with
  | some bs => (s, .ok bs)
  | none => readContribution a c.seq c.block.src (collSize c.block.type) c.block.count 0 s

/-- The flags of the first `n` elements this device rounds (R418, R422). -/
def roundedFlags (own : Nat) (b : CollBlock) (l : List Contribution) (n : Nat) : Flags :=
  (((List.range b.count).filter fun j => roundingDevice b j = own).take n).foldl
    (fun f j => orFlags f ((reduceElem b (elemsOf b l j)).getD (0, noFlags)).2) noFlags

/-- The end that a member's element fault brings: with what this device had rounded and delivered before it learnt of it (R422,
R423). -/
def peerEnd (s : State) (a : Act) (c : CollCmd) (x : PeerFault) : State × CollEnd :=
  let n := collSize c.block.type
  let k := min x.delivered (collBytes c.block / n) * n
  match contribution a c s with
  | (s1, .ok src) =>
    (s1, .failed 4 x.code 0 k
      (if c.block.op < 2 then roundedFlags s.dev.number c.block (arrivalOrder s.dev.number src c.peers) x.rounded else noFlags))
  | (s1, .error _) => (s1, .early 4 x.code 0)

/-- The end of a command whose members have all arrived, and the state after its reads and writes; where several causes hold,
the first of 2, 1, 4, 3 (log 59). -/
def collEnd (s : State) (a : Act) (c : CollCmd) : State × CollEnd :=
  let b := c.block
  let own := s.dev.number
  let n := collSize b.type
  if memberGone s.dev c then (s, .early 2 codeENG 0)
  else if !c.peers.all (agrees own b) then (s, .early 1 codeENG 0)
  else
    match c.peers.findSome? (fun p => p.failed) with
    | some x => peerEnd s a c x
    | none =>
      match contribution a c s with
      | (s1, .error t) => (s1, .early 4 t.code t.addr)
      | (s1, .ok src) =>
        match collResult own b (arrivalOrder own src c.peers) with
        | none => (s1, .early 3 codeXEXP 0)
        | some (bs, fl) =>
          match writeResult a c.seq c.arrival b.dst n (collBytes b / n) 0 bs s1 with
          | (s2, some t) => (s2, .failed 4 t.1.code t.1.addr (t.2 * n) fl)
          | (s2, none) => (s2, .done bs fl)

/-- The completion record of a COLL (R422). -/
def collRecord (own : Nat) (c : CollCmd) (flags : Flags) (code cause delivered : Nat) : List Byte :=
  bytesOfNat 4 (flagsNat flags) ++ bytesOfNat 2 code ++ bytesOfNat 1 cause
    ++ bytesOfNat 1 (rankOf c.block.group own) ++ bytesOfNat 8 delivered ++ recordTail c.stamp c.seq

/-- Count `n` bytes in updates of at most 256 (R329). -/
def countAll (a : Act) (seq arrival : Nat) : Nat → Nat → State → State
  | 0, _, s => s
  | fuel + 1, n, s => if n = 0 then s else countAll a seq arrival fuel (n - min n 256) (sendCount s a seq arrival (min n 256))

/-- STATUS of a failure, the record and the count of every byte set out, and the command is taken away (R330, R422). -/
def closeColl (s : State) (n : Nat) (a : Act) (c : CollCmd) (code : Option Nat) (rec : List Byte) : State :=
  let s1 := sendEnd s a c.seq c.arrival code (c.record.map fun r => (r, rec))
  let s2 := countAll a c.seq c.arrival (collBytes c.block / 256 + 1) (collBytes c.block) s1
  { s2 with dev := { s2.dev with colls := s2.dev.colls.eraseIdx n } }

/-- Leave DST's bytes unpromised (R423). -/
def scrambleDst (a : Act) (seq w ptr esz : Nat) : Nat → Nat → State → State
  | 0, _, s => s
  | n + 1, i, s =>
    match locate s a (ptr + i * esz) esz esz .store true 0 with
    | .error _ => scrambleDst a seq w ptr esz n (i + 1) s
    | .ok l =>
      let (bs, d) := freeBytes s.dev esz
      let s1 := { s with dev := d }
      scrambleDst a seq w ptr esz n (i + 1) ((engineWrite s1 a seq w i (ptr + i * esz) l bs).getD s1)

/-- A matched command fails on this member (R330, R422, R423). -/
def failColl (s : State) (n : Nat) (a : Act) (c : CollCmd) (cause code addr delivered : Nat) (fl : Flags) : State :=
  let esz := collSize c.block.type
  let s1 := scrambleDst a c.seq c.arrival c.block.dst esz (collBytes c.block / esz) 0 s
  let s2 := closeColl s1 n a c (some code) (collRecord s.dev.number c fl code cause delivered)
  deferTo s2 c.who (deferredRec codeENG addr (12 + 256 * code) c.stamp c.seq)

/-- Whether a command waits: for its activation's scratch banks, for earlier commands to start (R324), for effects before it
(R189, R270), or for an atomic on its source. -/
def collWaits (s : State) (a : Act) (c : CollCmd) : Bool :=
  (a.place.isNone && (c.block.src / 2 ^ 62 = 0 || c.block.dst / 2 ^ 62 = 0))
    || !earlierStarted s.dev c.who c.seq || engineHeld s a c.seq
    || (ownLive s.dev a.key).any fun q => decide (q.seq < c.seq) && match q.op with
      | .atom _ _ _ => true | .atomr _ _ _ => true | _ => false

/-- Replace a collective command. -/
def setColl (d : Dev) (n : Nat) (c : CollCmd) : Dev := { d with colls := d.colls.set n c }

/-- Word `i` of a contribution taken, or its element `i` where that is smaller, is read only now (R268). -/
def rereadColl (n i : Nat) (s : State) : State :=
  match s.dev.colls[n]? with
  | none => s
  | some c => match findAct s c.who, c.took with
    | some a, some bs =>
      let u := min (collSize c.block.type) 8
      match locate s a (c.block.src + i * u : Nat) u u .load false 0 with
      | .ok l =>
        if l.mode = .live && decide (u * i + u ≤ bs.length) && !badIn s.dev l.addr u then
          let w := memReadBytes (ownBefore s.dev a.key c.seq s.dev.mem) l.addr u
          { s with dev := setColl s.dev n { c with took := some (putWordBytes bs u i w) } }
        else s
      | .error _ => s
    | _, _ => s

/-- COLLECTIVE_COMPLETE: every member has arrived; this device's contribution is taken, then the command ends without failure
(R268, R418-R422). -/
def execCollectiveComplete (n : Nat) (s : State) : Host.Outcome State Fault Refusal :=
  .next (match s.dev.colls[n]? with
    | none => s
    | some c =>
      match findAct s c.who with
      | none => s
      | some a =>
        if !allArrived s.dev.number c || collWaits s a c then s
        else
          match collEnd s a c with
          | (s1, .done bs fl) =>
            if c.took.isNone then
              match contribution a c s with
              | (s2, .ok src) => { s2 with dev := setColl s2.dev n { c with took := some src } }
              | (_, .error _) => s
            else closeColl s1 n a c none (collRecord s.dev.number c fl 0 0 bs.length)
          | (_, .failed _ _ _ _ _) => s)

/-- COLLECTIVE_FAILURE: a matched command fails with the cause and status of R423: a member that is gone fails it at any time, the
other causes are those the matched commands themselves give. -/
def execCollectiveFailure (n cause code : Nat) (s : State) : Host.Outcome State Fault Refusal :=
  .next (match s.dev.colls[n]? with
    | none => s
    | some c =>
      match findAct s c.who with
      | none => s
      | some a =>
        if collWaits s a c || !(memberGone s.dev c || allArrived s.dev.number c) then s
        else
          match collEnd s a c with
          | (s1, .failed x y addr k fl) => if x = cause && y = code then failColl s1 n a c x y addr k fl else s
          | (_, .done _ _) => s)

end Sys2Proof.Machine
end

