-- ==== Sys2Proof/Machine/Matrix.lean ====
section
/-! DEFINITION. The matrix array: MTX, ACC and AREAD, and the array's own steps (R338-R363). -/
namespace Sys2Proof.Machine

/-! ### Checks (R340, R348, R354) -/

/-- The core of the activation that issues. -/
def issueCore (s : State) : Nat := actCore s.act0

/-- TINFO of ACC (R340). -/
def accTrap (s : State) (cause tile : Nat) : State := slotTrap s codeACC 0 (tile * 256 + cause)

/-- FMT of the slot in issue (R354). -/
def fmtTrap (s : State) (cause wfmt afmt : Nat) : State :=
  slotTrap s codeFMT 0 (cause + afmt * 2 ^ 12 + wfmt % 512 * 2 ^ 16)

/-- Whether the issuer owns a tile (R339). -/
def ownsTile (s : State) (t : AReg) : Bool := (ownedTiles s s.act0).contains t

/-- Cause 4, then cause 1, of an MTX member (R340). -/
def checkMtx (s : State) (t : Option AReg) (eff : State → State) : State :=
  if !ownsArray s s.act0 then accTrap s 4 0
  else match t with
    | some x => if ownsTile s x then eff s else accTrap s 1 x.val
    | none => eff s

/-- Cause 1 of an ACC or AREAD member (R340). -/
def checkAcc (s : State) (t : AReg) (eff : State → State) : State :=
  if ownsTile s t then eff s else accTrap s 1 t.val

/-- The bank of a number. -/
def bankOf (c : Core) (w1 : Bool) : Bank := if w1 then c.w1 else c.w0

/-- Replace a bank. -/
def setBank (c : Core) (w1 : Bool) (b : Bank) : Core := if w1 then { c with w1 := b } else { c with w0 := b }

/-- Whether a weight format word is sparse (R345). -/
def wSparse (f : Nat) : Bool := f / 256 % 2 = 1

/-- The format code of a weight format word. -/
def wCode (f : Nat) : Nat := f % 8

/-- Whether a weight format word is valid (R345). -/
def wordOk (f : Nat) : Bool := wCode f ≤ 5 && f / 8 % 32 = 0 && f / 512 = 0 && (!wSparse f || wCode f ≤ 2)

/-- Whether an activation format is in the class of a weight format (R348). -/
def sameClass (a : Fmt4) (f : Nat) : Bool :=
  match a with
  | .i8 | .n8 | .e4m3 | .e5m2 => decide (wCode f ≤ 3)
  | .f16 | .bf16 => decide (4 ≤ wCode f)
  | _ => false

/-! ### Tiles -/

/-- A tile of a core. -/
def getTile (d : Dev) (core : Nat) (t : AReg) : Tile := (getCore d core).tiles[t.val]

/-- Replace a tile of a core. -/
def putTile (d : Dev) (core : Nat) (t : AReg) (x : Tile) : Dev :=
  let c := getCore d core
  putCore d core { c with tiles := c.tiles.set t.val x }

/-- Element number of a row and column. -/
def elemNo (row col : Nat) : Nat := row * 384 + col

/-- An element of a tile. -/
def getElem (x : Tile) (row col : Nat) : Elem := sget Elem.zero x.elems (elemNo row col)

/-- Write an element; the zero element is not listed. -/
def putElem (l : List (Nat × Elem)) (n : Nat) (e : Elem) : List (Nat × Elem) :=
  if e = Elem.zero then sdel l n else sput l n e

/-- 1.0 as a column scale. -/
def scaleOne : Nat := 0x3F800000

/-- A column scale. -/
def getScale (x : Tile) (col : Nat) : Nat := sget scaleOne x.scales col

/-- Whether a row is busy. -/
def rowBusy (x : Tile) (row : Nat) : Bool := x.busy.any fun b => b.1 = row

/-- Hold every row of a list busy until core cycle `t` (R352, R353). -/
def holdRows (x : Tile) (rows : List Nat) (t : Nat) : Tile :=
  { x with busy := x.busy ++ rows.map fun r => (r, some t) }

/-- All rows. -/
def allRows : List Nat := List.range 64

/-- The tag a tile takes from the slot in issue. -/
def tileTag (s : State) (t : Tag) : Tag := if tagIn s.iss.freed t then tagStale else t

/-- An element as an exact sum (R91, R342). -/
def sumOfElem (e : Elem) : XSum := { v := e.v.toNat, sp := { nan := e.nan, pinf := e.pinf, ninf := e.ninf } }

/-- An exact sum as an element. -/
def elemOfSum (x : XSum) : Elem :=
  { v := BitVec.ofNat 96 x.v, nan := x.sp.nan, pinf := x.sp.pinf, ninf := x.sp.ninf }

/-- A raw element: the first 16 bytes of an x128 container (R358). -/
def rawOfElem (e : Elem) : Nat :=
  rawOf { v := wrapNat 125 (sextInt 96 e.v.toNat), sp := { nan := e.nan, pinf := e.pinf, ninf := e.ninf } }

/-- The element of 128 raw bits; bits [124:96] are ignored (R359). -/
def elemOfRaw (x : Nat) : Elem :=
  { v := BitVec.ofNat 96 x, nan := bitOf x 127, pinf := bitOf x 126, ninf := bitOf x 125 }

/-- Raw element `l` of a vector register. -/
def rawLane (v : Vec) (l : Nat) : Nat := lane 128 v l

/-! ### MMA, MMAS, WLD, SCL (R345, R348-R351) -/

/-- Feed checks of an array command: UNBOUND, then DIRECTION (R320). -/
def checkArrayFeed (s : State) (e : EReg) (eff : State → State) : State :=
  match checkDirection s.act0 e false with
  | some c => feedTrap s e c
  | none => eff s

/-- The batten format of a bound feed. -/
def feedFmt (a : Act) (e : EReg) : Fmt4 := match feedOf a e with | some f => f.batten.fmt | none => .i8

/-- The FMT cause of an MMA or MMAS, where there is one (R348). -/
def mmaFmtCause (b : Bank) (sparse : Bool) (f : Fmt4) (g : Option Fmt4) : Option Nat :=
  match b.fmt with
  | none => some 2
  | some w =>
    if wSparse w != sparse then some 4
    else if !sameClass f w || (match g with | some x => x != f | none => false) then some 1
    else none

/-- Accept an MMA or MMAS (R350): latches captured, rows busy, tag taken, enqueued. -/
def acceptMma (s : State) (w1 sparse : Bool) (t : AReg) (e : EReg) (first n : Nat) (tag : Tag) : State :=
  let core := issueCore s
  let c := getCore s.dev core
  if 4 ≤ c.mulq.length then stall s
  else
    let lat := (getCore s.dev0 core).latches.toList.map fun b => b.toInt
    let cmd : MulCmd :=
      { owner := s.act.key, serial := c.serial, tile := t, bank := w1, feed := e, afmt := feedFmt s.act0 e
        sparse := sparse, first := first, n := n, done := 0, latches := lat, added := [], holds := [] }
    let x := c.tiles[t.val]
    let x1 := { x with tag := tileTag s tag, busy := x.busy ++ (List.range n).map fun i => (first + i, none) }
    let c1 := { c with mulq := c.mulq ++ [cmd], serial := c.serial + 1, tiles := c.tiles.set t.val x1 }
    { s with dev := putCore s.dev core c1 }

/-- MMA and MMAS: ownership, feeds, FMT, operands (R340, R348, R350, R370). Cause 2, no format latched, reports WFMT 0 (log 47). -/
def doMma (w1 sparse : Bool) (t : AReg) (e : EReg) (b : SReg) (tag : Tag) (s : State) : State :=
  checkMtx s (some t) fun s =>
    checkArrayFeed s e fun s =>
      let second := fun (eff : State → State) => if sparse then checkArrayFeed s (e + 1) eff else eff s
      second fun s =>
        let bk := bankOf (getCore s.dev0 (issueCore s)) w1
        let f := feedFmt s.act0 e
        match mmaFmtCause bk sparse f (if sparse then some (feedFmt s.act0 (e + 1)) else none) with
        | some cause => fmtTrap s cause (bk.fmt.getD 0) (fmt4Code f)
        | none =>
          let x := (readS s.act0 b).toNat
          let n := x % 256
          let first := x / 256 % 256
          if n = 0 || 64 < n || 64 < first + n || x / 65536 != 0 then accTrap s 3 t.val
          else acceptMma s w1 sparse t e first n tag

/-- MMA.w0 (R350). -/
def execMmaW0 (k : KSel) (d : AReg) (a : EReg) (b : SReg) (s : State) : Host.Outcome State Fault Refusal :=
  issue (.mmaW0 k d a b) s fun t s => doMma false false d a b t s
/-- MMA.w1 (R350). -/
def execMmaW1 (k : KSel) (d : AReg) (a : EReg) (b : SReg) (s : State) : Host.Outcome State Fault Refusal :=
  issue (.mmaW1 k d a b) s fun t s => doMma true false d a b t s
/-- MMAS.w0 (R350). -/
def execMmasW0 (k : KSel) (d : AReg) (a : EReg) (b : SReg) (s : State) : Host.Outcome State Fault Refusal :=
  issue (.mmasW0 k d a b) s fun t s => doMma false true d a b t s
/-- MMAS.w1 (R350). -/
def execMmasW1 (k : KSel) (d : AReg) (a : EReg) (b : SReg) (s : State) : Host.Outcome State Fault Refusal :=
  issue (.mmasW1 k d a b) s fun t s => doMma true true d a b t s

/-- WLD: the format word is latched and the load enqueued (R345). -/
def doWld (w1 : Bool) (e : EReg) (b : SReg) (s : State) : State :=
  checkMtx s none fun s =>
    checkArrayFeed s e fun s =>
      let f := (readS s.act0 b).toNat
      if !wordOk f then fmtTrap s 3 f 0
      else
        let core := issueCore s
        let c := getCore s.dev core
        if 4 ≤ c.wq.length then stall s
        else
          let cmd : WldCmd := { owner := s.act.key, serial := c.serial, bank := w1, feed := e, fmt := f, done := 0, was := none }
          let c1 := setBank c w1 { bankOf c w1 with fmt := some f }
          { s with dev := putCore s.dev core { c1 with wq := c1.wq ++ [cmd], serial := c1.serial + 1 } }

/-- WLD.w0 (R345). -/
def execWldW0 (k : KSel) (a : EReg) (b : SReg) (s : State) : Host.Outcome State Fault Refusal :=
  issue (.wldW0 k a b) s fun _ s => doWld false a b s
/-- WLD.w1 (R345). -/
def execWldW1 (k : KSel) (a : EReg) (b : SReg) (s : State) : Host.Outcome State Fault Refusal :=
  issue (.wldW1 k a b) s fun _ s => doWld true a b s

/-- SCL: latency 6 into the latches (R349). -/
def execScl (k : KSel) (a : VReg) (s : State) : Host.Outcome State Fault Refusal :=
  issue (.scl k a) s fun t s =>
    checkMtx s none fun s => pushResult s .latches (BitVec.ofNat 2048 ((readV s.act0 a).toNat % 2 ^ 64)) 6 t

/-! ### ACOL and the ACC group (R352, R356-R360) -/

/-- Change a tile once none of `rows` is busy; they are busy for 4 cycles after (R352, R353). -/
def changeTile (s : State) (t : AReg) (rows : List Nat) (tag : Tag) (f : Tile → Tile) : State :=
  let core := issueCore s
  let x := getTile s.dev core t
  if rows.any (rowBusy x) then stall s
  else { s with dev := putTile s.dev core t (holdRows { f x with tag := tileTag s tag } rows (s.dev.cycle + 4)) }

/-- ACOL (R357). -/
def execAcol (k : KSel) (d : AReg) (a : VReg) (b : SReg) (s : State) : Host.Outcome State Fault Refusal :=
  issue (.acol k d a b) s fun t s =>
    checkMtx s (some d) fun s =>
      let m := (readS s.act0 b).toNat
      if 5 < m then accTrap s 3 d.val
      else
        let v := readV s.act0 a
        changeTile s d allRows t fun x =>
          { x with scales := (List.range 64).foldl (fun l i =>
              let c := lane 32 v i
              if c = scaleOne then sdel l (64 * m + i) else sput l (64 * m + i) c) x.scales }

/-- AZERO (R356). -/
def execAzero (k : KSel) (d : AReg) (a : SReg) (s : State) : Host.Outcome State Fault Refusal :=
  issue (.azero k d a) s fun t s =>
    checkAcc s d fun s =>
      changeTile s d allRows t fun x =>
        { x with elems := [], e := sextInt 16 (readS s.act0 a).toNat, scales := [] }

/-- V divided by 2^n, rounded to nearest, ties to even (R356). -/
def normElem (n : Nat) (e : Elem) : Elem :=
  let v := sextInt 96 e.v.toNat
  let q := (roundMul .rne (decide (v < 0)) v.natAbs 0 false n).1
  { e with v := BitVec.ofNat 96 (wrapNat 96 (signedInt (decide (v < 0)) q)) }

/-- ANORM: cause 3, then cause 2 (R340, R356). -/
def execAnorm (k : KSel) (d : AReg) (a : SReg) (s : State) : Host.Outcome State Fault Refusal :=
  issue (.anorm k d a) s fun t s =>
    checkAcc s d fun s =>
      let n := (readS s.act0 a).toNat
      if 96 < n then accTrap s 3 d.val
      else if 32767 < (getTile s.dev0 (issueCore s) d).e + n then accTrap s 2 d.val
      else changeTile s d allRows t fun x =>
        { x with e := x.e + n, elems := x.elems.foldr (fun p l => putElem l p.1 (normElem n p.2)) [] }

/-- AEXP (R356). -/
def execAexp (k : KSel) (d : AReg) (a : SReg) (s : State) : Host.Outcome State Fault Refusal :=
  issue (.aexp k d a) s fun t s =>
    checkAcc s d fun s => changeTile s d allRows t fun x => { x with e := sextInt 16 (readS s.act0 a).toNat }

/-- The sum of two elements on one grid (R359). -/
def addElem (x y : Elem) : Elem :=
  { v := x.v + y.v, nan := x.nan || y.nan, pinf := x.pinf || y.pinf, ninf := x.ninf || y.ninf }

/-- What AWRITE, or AWRITE.ADD (`add`), makes of an element from raw element `i` of the source (R359). -/
def awriteElem (add : Bool) (v : Vec) (i : Nat) (e : Elem) : Elem :=
  if add then addElem e (elemOfRaw (rawLane v i)) else elemOfRaw (rawLane v i)

/-- An AWRITE of segment `seg` of a row also changes how the row would stand without an MMA in progress (R355). -/
def awriteShadow (add : Bool) (d : AReg) (row seg : Nat) (v : Vec) (m : MulCmd) : MulCmd :=
  let n := elemNo row (16 * seg)
  if m.tile = d then
    { m with added := m.added.map fun p => if n ≤ p.1 && p.1 < n + 16 then (p.1, awriteElem add v (p.1 - n) p.2) else p }
  else m

/-- The multiply commands of the issuing core after an AWRITE (R355). -/
def shadowAwrite (s : State) (add : Bool) (d : AReg) (row seg : Nat) (v : Vec) : State :=
  let c := getCore s.dev (issueCore s)
  { s with dev := putCore s.dev (issueCore s) { c with mulq := c.mulq.map (awriteShadow add d row seg v) } }

/-- AWRITE and AWRITE.ADD (R359): cause 3, the wait of R352, XEXP, the effect. -/
def doAwrite (add : Bool) (d : AReg) (a : VReg) (b : SReg) (tag : Tag) (s : State) : State :=
  checkAcc s d fun s =>
    let x := (readS s.act0 b).toNat
    let row := x % 256
    let seg := x / 256 % 32
    let ed := sextInt 16 (x / 2 ^ 32)
    let t := getTile s.dev0 (issueCore s) d
    if 63 < row || 23 < seg || x / 2 ^ 13 % 2 ^ 19 != 0 || x / 2 ^ 48 != 0 then accTrap s 3 d.val
    else if rowBusy t row then stall s
    else if ed != t.e then slotTrap s codeXEXP 0 (wrapNat 32 t.e + 2 ^ 32 * wrapNat 32 ed)
    else
      let v := readV s.act0 a
      changeTile (shadowAwrite s add d row seg v) d [row] tag fun x =>
        { x with elems := (List.range 16).foldl (fun l i =>
            let n := elemNo row (16 * seg + i)
            putElem l n (awriteElem add v i (sget Elem.zero l n))) x.elems }

/-- AWRITE (R359). -/
def execAwrite (k : KSel) (d : AReg) (a : VReg) (b : SReg) (s : State) : Host.Outcome State Fault Refusal :=
  issue (.awrite k d a b) s fun t s => doAwrite false d a b t s
/-- AWRITE.ADD (R359). -/
def execAwriteAdd (k : KSel) (d : AReg) (a : VReg) (b : SReg) (s : State) : Host.Outcome State Fault Refusal :=
  issue (.awriteAdd k d a b) s fun t s => doAwrite true d a b t s

/-- The headroom of an element (R360). -/
def headroom (e : Elem) : Nat :=
  let x := e.v.toNat
  let y := if 2 ^ 95 ≤ x then 2 ^ 96 - 1 - x else x
  if y = 0 then 95 else 94 - Nat.log2 y

/-- The value ASTAT reads (R360). -/
def astatValue (x : Tile) : Nat :=
  let es := x.elems.map (·.2)
  (es.foldl (fun h e => min h (headroom e)) 95) * 2 ^ 24
    + (if es.any (·.ninf) then 2 ^ 18 else 0) + (if es.any (·.pinf) then 2 ^ 17 else 0)
    + (if es.any (·.nan) then 2 ^ 16 else 0) + wrapNat 16 x.e

/-- ASTAT: latency 1 after its stall (R360). -/
def execAstat (k : KSel) (d : SReg) (a : AReg) (s : State) : Host.Outcome State Fault Refusal :=
  issue (.astat k d a) s fun t s =>
    checkAcc s a fun s =>
      let x := getTile s.dev0 (issueCore s) a
      if x.busy.isEmpty then resultS s d (BitVec.ofNat 64 (astatValue x)) 1 t else stall s

/-! ### AREAD (R361, R362) -/

/-- The format, lane width, rounding and last segment of a rounded destination. -/
def areadFmt : AreadDst → Option (FFmt × Nat × Rnd × Nat)
  | .f32 r => some (fmtF32, 32, r, 5)
  | .bf16 r => some (fmtBF16, 16, r, 2)
  | .f16 r => some (fmtF16, 16, r, 2)
  | .e4m3 r => some (fmtE4M3, 8, r, 1)
  | .e5m2 r => some (fmtE5M2, 8, r, 1)
  | .raw => none

/-- The exact value of an element before rounding, with the flags of R93. -/
def elemVal (e : Elem) (grid : Int) : FVal × Flags :=
  if e.nan || (e.pinf && e.ninf) then (.nan false true 0, flagNV true)
  else if e.pinf then (.inf false, noFlags)
  else if e.ninf then (.inf true, noFlags)
  else
    let v := sextInt 96 e.v.toNat
    (.fin (decide (v < 0)) v.natAbs grid, noFlags)

/-- An exact value carried into the destination format: the one rounding of R361. -/
def carryVal (f : FFmt) (mode : Mode) : FVal → FRes
  | .nan n _ p => (if p = 0 then (if n && f.e4m3 then withSign f true (canonNaN f) else withSign f n (canonNaN f))
      else convNaN fmtF32 f n p, noFlags)
  | .inf n => convInf f mode n
  | .fin n m e => roundFin f mode n m e

/-- One lane of a rounded readout: `scale` is the column scale, where it applies. -/
def readoutLane (f : FFmt) (mode : Mode) (grid : Int) (scale : Option Nat) (e : Elem) : FRes :=
  let x := elemVal e grid
  match scale with
  | none => let r := carryVal f mode x.1; (r.1, orFlags x.2 r.2)
  | some c =>
    let y := decodeF fmtF32 c
    let nv := flagNV (isSNaN y)
    if isNaN x.1 then (canonNaN f, orFlags x.2 nv)
    else
      match y with
      | .nan n _ p => (convNaN fmtF32 f n p, nv)
      | y =>
        match mulVals x.1 y with
        | none => (canonNaN f, flagNV true)
        | some z => carryVal f mode z

/-- AREAD (R361, R362). -/
def execAread (k : KSel) (d : VReg) (a : AReg) (b : SReg) (dst : AreadDst) (s : State) :
    Host.Outcome State Fault Refusal :=
  issue (.aread k d a b dst) s fun tag s =>
    checkAcc s a fun s =>
      let x := (readS s.act0 b).toNat
      let row := x % 256
      let seg := x / 256 % 32
      let scaled := bitOf x 16
      let t := getTile s.dev0 (issueCore s) a
      let bad := decide (63 < row) || x / 2 ^ 13 % 8 != 0 || x / 2 ^ 17 != 0
      match areadFmt dst with
      | none =>
        if bad || 23 < seg || scaled then accTrap s 3 a.val
        else if rowBusy t row then stall s
        else resultV s d (ofLanes 128 fun l => rawOfElem (getElem t row (16 * seg + l))) 8 tag
      | some (f, w, r, last) =>
        if bad || last < seg then accTrap s 3 a.val
        else if rowBusy t row then stall s
        else
          let per := lanes w
          let n := min per (384 - per * seg)
          let l := (List.range n).map fun i =>
            let col := per * seg + i
            readoutLane f (fpMode s r) t.e (if scaled then some (getScale t col) else none) (getElem t row col)
          withFlags s l 0 fun s => resultV s d (ofLaneList w (l.map (·.1))) 8 tag

/-! ### The array's own steps (R342, R343, R346, R347, R350-R355) -/

/-- An activation element of a row (R342, R348). -/
def activationVal (f : Fmt4) (x : Nat) : FVal :=
  match fmt4Kind f with
  | .flt g => decodeF g x
  | .int sg w =>
    let v : Int := if sg then sextInt w x else (x % 2 ^ w : Nat)
    .fin (decide (v < 0)) v.natAbs 0
  | .x128 => .fin false 0 0

/-- The code values of Q4N (R88). -/
def q4nValue (c : Nat) : Int :=
  match c with
  | 0 => -128 | 1 => -93 | 2 => -71 | 3 => -55 | 4 => -42 | 5 => -30 | 6 => -19 | 7 => -9
  | 8 => 0 | 9 => 10 | 10 => 21 | 11 => 33 | 12 => 46 | 13 => 62 | 14 => 84 | _ => 127

/-- Byte `i` of entry `n` of a weight stream. -/
def streamByte (es : List Vec) (n i : Nat) : Nat := lane 8 (es.getD n 0) i

/-- An integer as an exact value. -/
def intVal (v : Int) : FVal := .fin (decide (v < 0)) v.natAbs 0

/-- An 8-bit or 16-bit weight of a format code. -/
def weightVal (code x : Nat) : FVal :=
  match code with
  | 0 => decodeF fmtE4M3 x
  | 1 => decodeF fmtE5M2 x
  | 2 => intVal (sextInt 8 x)
  | 4 => decodeF fmtBF16 x
  | _ => decodeF fmtF16 x

/-- Weight (k, j) of a bank's contents; `none` is absent (R343, R346, R347). -/
def weightAt (f : Nat) (es : List Vec) (k j : Nat) : Option FVal :=
  let code := wCode f
  if wSparse f then
    let g := k / 4
    let byte := streamByte es (384 + j / 4) (64 * (j % 4) + g / 2)
    let nib := if g % 2 = 0 then byte % 16 else byte / 16
    if k % 4 = nib % 4 then some (weightVal code (streamByte es j (2 * g)))
    else if k % 4 = nib / 4 then some (weightVal code (streamByte es j (2 * g + 1)))
    else none
  else if code = 3 then
    let byte := streamByte es (j / 2) (128 * (j % 2) + k / 2)
    let c := if k % 2 = 0 then byte % 16 else byte / 16
    let scale := streamByte es (192 + j / 64) (4 * (j % 64) + k / 64)
    some (intVal (q4nValue c * scale))
  else if 4 ≤ code then some (weightVal code (lane 16 (es.getD j 0) k))
  else some (weightVal code (streamByte es j k))

/-- A value scaled by a power of two. -/
def scaleVal (s : Int) : FVal → FVal
  | .fin n m e => .fin n m (e + s)
  | v => v

/-- The latch of activation element `k` (R349). -/
def latchOf (m : MulCmd) (f k : Nat) : Int :=
  m.latches.getD (if m.sparse then k % 256 / 32 else if 4 ≤ wCode f then k / 16 else k / 32) 0

/-- The activation elements of a row: one or two popped entries (R338, R350). -/
def rowElems (afmt : Fmt4) (xs : List Vec) : List FVal :=
  let w := fmt4Width afmt
  xs.flatMap fun v => (laneList w v).map (activationVal afmt)

/-- Add a row's terms to one element (R342). -/
def addRowTerms (m : MulCmd) (f : Nat) (es : List Vec) (grid : Int) (row : List FVal) (j : Nat) (e : Elem) : Elem :=
  elemOfSum (((row.zip (List.range row.length)).foldl (fun s p =>
    match weightAt f es p.2 j with
    | none => s
    | some w => addTerm 96 grid s (productTerm (scaleVal (latchOf m f p.2) p.1) w)) (sumOfElem e)))

/-- The columns of a mode (R338). -/
def modeCols (f : Nat) : Nat := if 4 ≤ wCode f then 192 else 384

/-- Add a row of terms to a tile. -/
def addRow (m : MulCmd) (f : Nat) (es : List Vec) (xs : List Vec) (x : Tile) : Tile :=
  let row := rowElems m.afmt xs
  let r := m.first + m.done
  { x with elems := (List.range (modeCols f)).foldl (fun l j =>
      let n := elemNo r j
      putElem l n (addRowTerms m f es x.e row j (sget Elem.zero l n))) x.elems }

/-- Give the first open hold of a row its end (R353). -/
def endHold (row t : Nat) : List (Nat × Option Nat) → List (Nat × Option Nat)
  | [] => []
  | b :: rest => if b.1 = row && b.2 = none then (row, some t) :: rest else b :: endHold row t rest

/-- Drop the first open hold of a row. -/
def dropHold (row : Nat) : List (Nat × Option Nat) → List (Nat × Option Nat)
  | [] => []
  | b :: rest => if b.1 = row && b.2 = none then rest else b :: dropHold row rest

/-- The open holds of an abandoned MMA clear (R355). -/
def clearHolds (c : Core) (m : MulCmd) : Core :=
  let x := c.tiles[m.tile.val]
  let busy := (List.range (m.n - m.done)).foldl (fun l i => dropHold (m.first + m.done + i) l) x.busy
  { c with tiles := c.tiles.set m.tile.val { x with busy := busy } }

/-- An MMA abandoned behind another command has no effect: the elements of the rows that have entered stand as they would without it,
and no hold of it is left; the holds of other commands stay (R355, R366). -/
def undoMul (c : Core) (m : MulCmd) : Core :=
  let c1 := clearHolds c m
  let x := c1.tiles[m.tile.val]
  let elems := m.added.foldl (fun l p => putElem l p.1 p.2) x.elems
  let busy := m.holds.foldl (fun l h => l.erase (h.1, some h.2)) x.busy
  { c1 with tiles := c1.tiles.set m.tile.val { x with elems := elems, busy := busy } }

/-- A WLD abandoned behind another command has no effect: the bank's contents stand as they did before its first entry (R355). -/
def undoWld (c : Core) (m : WldCmd) : Core :=
  match m.was with
  | some b => setBank c m.bank { b with fmt := (bankOf c m.bank).fmt }
  | none => c

/-- The format a bank has latched once later WLDs are abandoned: that of the last WLD left, or that of its contents. -/
def latchedFmt (c : Core) (w : Bool) : Option Nat :=
  match (c.wq.filter fun m => m.bank = w).getLast? with
  | some m => some m.fmt
  | none => (bankOf c w).cur

/-- Abandon the commands of an activation from the failed one on (R355): a failed MMA keeps the rows before the failure, later
commands have no effect, and a failed WLD (of bank `wld`) leaves its bank empty. -/
def abandonFrom (c : Core) (k : ActKey) (serial : Nat) (wld : Option Bool) : Core :=
  let c0 := (c.mulq.filter fun m => m.owner = k && serial ≤ m.serial).foldl
    (fun c m => if m.serial = serial && wld.isNone then clearHolds c m else undoMul c m) c
  let c1 := (c.wq.filter fun m => m.owner = k && serial < m.serial).foldl undoWld c0
  let c2 := { c1 with
    mulq := c1.mulq.filter fun m => m.owner != k || m.serial < serial
    wq := c1.wq.filter fun m => m.owner != k || m.serial < serial }
  let c3 := [false, true].foldl (fun c w => setBank c w { bankOf c w with fmt := latchedFmt c w }) c2
  match wld with
  | some w => setBank c3 w Bank.empty
  | none => c3

/-- What an array pop finds (R320, R355). -/
inductive ArrayPop where
  | wait
  | fail (cause inner addr seq : Nat)
  | got (x : Vec) (f : Feed)
  deriving DecidableEq, Repr

/-- The array's pop of a feed. -/
def arrayPop (a : Act) (e : EReg) : ArrayPop :=
  match feedOf a e with
  | none => .fail feedUNBOUND 0 0 a.seq.toNat
  | some f =>
    if f.batten.out then .fail feedDIRECTION 0 0 f.seq
    else if battenEntries f.batten ≤ f.pos then .fail feedEND 0 0 f.seq
    else match f.buf with
      | [] => .wait
      | x :: _ => match x.fault with
        | some y => .fail feedFAULT y.1 y.2 f.seq
        | none => .got x.data f

/-- A failed array pop: the command and the later ones of the slot are abandoned, the failure leaves the feed, and FEED is deferred
(R322, R355). -/
def arrayFail (s : State) (core : Nat) (k : ActKey) (serial : Nat) (wld : Option Bool) (e : EReg)
    (cause inner addr seq idx : Nat) : State :=
  match findAct s k with
  | none => s
  | some a =>
    let d := putCore s.dev core (abandonFrom (getCore s.dev core) k serial wld)
    let a1 := match feedOf a e with
      | some f => if cause = feedFAULT then setFeed a e (some { f with buf := [] }) else a
      | none => a
    let info := feedInfo e inner cause + 2 ^ 19 + idx * 2 ^ 20
    putAct { s with dev := d } (addDeferred a1 (deferredRec codeFEED addr info a.stamp seq))

/-- The elements of a row that differ between two states of a tile, as they stand in the first. -/
def rowChanges (f row : Nat) (x y : Tile) : List (Nat × Elem) :=
  (List.range (modeCols f)).filterMap fun j =>
    let n := elemNo row j
    let a := sget Elem.zero x.elems n
    if a = sget Elem.zero y.elems n then none else some (n, a)

/-- A row with its data enters the array (R350, R353). -/
def enterRow (s : State) (core : Nat) (m : MulCmd) (a : Act) (f : Nat) (xs : List Vec) : State :=
  let c := getCore s.dev core
  let es := (bankOf c m.bank).entries
  let x := addRow m f es xs c.tiles[m.tile.val]
  let x1 := { x with busy := endHold (m.first + m.done) (s.dev.cycle + 24) x.busy }
  let m1 := { m with
    done := m.done + 1
    added := m.added ++ rowChanges f (m.first + m.done) c.tiles[m.tile.val] x
    holds := m.holds ++ [(m.first + m.done, s.dev.cycle + 24)] }
  let q := if m.done + 1 = m.n then c.mulq.drop 1 else m1 :: c.mulq.drop 1
  putAct { s with dev := putCore s.dev core { c with mulq := q, rowAt := s.dev.cycle + 1, tiles := c.tiles.set m.tile.val x1 } } a

/-- ARRAY_ROW_ENTRY: the next row of the oldest command on the multiply path (R350, R351). A sparse row whose second feed fails pops
neither, and of two failing feeds it reports the first (log 73). -/
def execArrayRowEntry (core : Fin 32) (s : State) : Host.Outcome State Fault Refusal :=
  .next (
    let c := getCore s.dev core.val
    match c.mulq with
    | [] => s
    | m :: _ =>
      let b := bankOf c m.bank
      match findAct s m.owner, b.cur with
      | some a, some f =>
        if s.dev.cycle < c.rowAt || !b.ready || c.wq.any (fun w => w.bank = m.bank && w.serial < m.serial) then s
        else
          match arrayPop a m.feed with
          | .wait => s
          | .fail cause inner addr seq => arrayFail s core.val m.owner m.serial none m.feed cause inner addr seq m.done
          | .got x g =>
            if m.sparse then
              match arrayPop a (m.feed + 1) with
              | .wait => s
              | .fail cause inner addr seq => arrayFail s core.val m.owner m.serial none (m.feed + 1) cause inner addr seq m.done
              | .got y h => enterRow s core.val m (takePop (takePop a m.feed g) (m.feed + 1) h) f [x, y]
            else enterRow s core.val m (takePop a m.feed g) f [x]
      | _, _ => s)

/-- The entries of a weight stream (R346). -/
def streamLength (f : Nat) : Nat :=
  if wSparse f then 480 else if wCode f = 3 then 198 else if 4 ≤ wCode f then 192 else 384

/-- WEIGHT_ENTRY: the oldest command on the weight path takes its next entry (R345, R351, R353). -/
def execWeightEntry (core : Fin 32) (s : State) : Host.Outcome State Fault Refusal :=
  .next (
    let c := getCore s.dev core.val
    match c.wq with
    | [] => s
    | m :: _ =>
      match findAct s m.owner with
      | none => s
      | some a =>
        if s.dev.cycle < c.entryAt || c.mulq.any (fun x => x.bank = m.bank && x.serial < m.serial) then s
        else
          match arrayPop a m.feed with
          | .wait => s
          | .fail cause inner addr seq => arrayFail s core.val m.owner m.serial (some m.bank) m.feed cause inner addr seq m.done
          | .got x g =>
            let b := bankOf c m.bank
            let b1 : Bank := { b with
              cur := some m.fmt, entries := (if m.done = 0 then [] else b.entries) ++ [x], ready := false
              readyAt := if m.done + 1 = streamLength m.fmt then some (s.dev.cycle + 8) else none }
            let q := if m.done + 1 = streamLength m.fmt then c.wq.drop 1 else { m with done := m.done + 1, was := some (m.was.getD b) } :: c.wq.drop 1
            putAct { s with dev := putCore s.dev core.val { setBank c m.bank b1 with wq := q, entryAt := s.dev.cycle + 1 } } (takePop a m.feed g))

/-- Whether a bank becomes ready at this cycle. -/
def bankDue (cycle : Nat) (b : Bank) : Bool := match b.readyAt with | some t => decide (t ≤ cycle) | none => false

/-- BANK_READY: 8 cycles after the last entry, bank w0 before w1 (R353). -/
def execBankReady (core : Fin 32) (s : State) : Host.Outcome State Fault Refusal :=
  .next (
    let c := getCore s.dev core.val
    let ready := fun (w1 : Bool) => setBank c w1 { bankOf c w1 with ready := true, readyAt := none }
    if bankDue s.dev.cycle c.w0 then { s with dev := putCore s.dev core.val (ready false) }
    else if bankDue s.dev.cycle c.w1 then { s with dev := putCore s.dev core.val (ready true) }
    else s)

/-- Remove the first hold of a row whose time has come. -/
def clearHold (row cycle : Nat) : List (Nat × Option Nat) → List (Nat × Option Nat)
  | [] => []
  | b :: rest =>
    if b.1 = row && (match b.2 with | some t => decide (t ≤ cycle) | none => false) then rest
    else b :: clearHold row cycle rest

/-- BUSY_BIT_CLEAR (R353). -/
def execBusyBitClear (core : Fin 32) (t : AReg) (row : Fin 64) (s : State) : Host.Outcome State Fault Refusal :=
  .next (
    let x := getTile s.dev core.val t
    { s with dev := putTile s.dev core.val t { x with busy := clearHold row.val s.dev.cycle x.busy } })

end Sys2Proof.Machine
end

