-- ==== Sys2Proof/Machine/Place.lean ====
section
/-! DEFINITION. Where activations run: eligibility, the keys of choice, placement, saving and restoring, wakes
(R191-R196, R223, R227, R228, R238-R240, R312, R339, R387-R393). -/
namespace Sys2Proof.Machine

/-! ### The keys of R191 and the round-robin pointers (R223) -/

/-- The queue index that stands for an activation's run. -/
def queueOfAct (s : State) (a : Act) : Nat := match actRun s a with | some r => r.queue | none => 0

/-- How far a queue index lies at or after a pointer, upward modulo 2^16. -/
def rrDist (ptr : BitVec 16) (q : Nat) : Nat := (q + 65536 - ptr.toNat) % 65536

/-- A pointer of a priority. -/
def pointerOf (v : Vector (BitVec 16) 8) (prio : Nat) : BitVec 16 := if h : prio < 8 then v[prio] else 0

/-- Whether the keys above stamp and run are equal. -/
def sameRank (s : State) (a b : Act) : Bool :=
  speculative s a = speculative s b && runPriority s a = runPriority s b && actLike s a = actLike s b

/-- Whether `a` goes before `b` (R191). -/
def prefers (s : State) (v : Vector (BitVec 16) 8) (a b : Act) : Bool :=
  if speculative s a != speculative s b then !speculative s a
  else if runPriority s a != runPriority s b then decide (runPriority s b < runPriority s a)
  else if actLike s a != actLike s b then decide (actLike s b < actLike s a)
  else if runOfKey a.key = runOfKey b.key then stampLt a.stamp b.stamp
  else
    let p := pointerOf v (runPriority s a)
    decide (rrDist p (queueOfAct s a) < rrDist p (queueOfAct s b))

/-- The activation the keys choose; of equals the first listed. -/
def chooseAct (s : State) (v : Vector (BitVec 16) 8) : List Act → Option Act
  | [] => none
  | a :: rest => match chooseAct s v rest with
    | some b => if prefers s v b a then some b else some a
    | none => some a

/-- The pointers after a choice: the last key moves its own when it decided (R223). -/
def movePointer (s : State) (v : Vector (BitVec 16) 8) (w : Act) (l : List Act) : Vector (BitVec 16) 8 :=
  let p := runPriority s w
  if l.any fun x => runOfKey x.key != runOfKey w.key && sameRank s x w then
    if h : p < 8 then v.set p (BitVec.ofNat 16 (queueOfAct s w + 1)) h else v
  else v

/-! ### Eligibility (R192) -/

/-- Whether a task stands in an access set. -/
def inSet (l : Option (List Nat)) (t : Nat) : Bool := match l with | some x => x.contains t | none => false

/-- The core a task is pinned to (R238). -/
def pinOf (img : Image) (t : Nat) : Option Nat :=
  match img.tensors.find? fun x => x.lc = 1 && x.vault.isSome && (inSet x.readers t || inSet x.writers t) with
  | some x => x.vault
  | none => none

/-- Whether a word of code is a SPAWN or SPAWNC. -/
def spawnWord (w : BitVec 32) : Bool :=
  match decodeWord w with
  | some x => match x.instr with | .spawn .. => true | .spawnc .. => true | _ => false
  | none => false

/-- Whether some word of a code section is a SPAWN or SPAWNC. -/
def codeSpawns (code : List Byte) : Bool := (List.range (code.length / 4)).any fun i => (codeWord code (4 * i)).any spawnWord

/-- Whether an activation that has not retired may still spawn one into phase `p`, or an ancestor of one: it is of a lower task of the
same instant, and the image's code has a SPAWN (R206). -/
def maySpawnInto (s : State) (run : Nat) (p : Nat × Nat) : Bool :=
  ((findRun s.dev run).any fun r => codeSpawns r.image.code)
    && (runActs s run).any fun b => b.status != .retired && b.stamp.inst = p.1 && decide (b.stamp.task < p.2)

/-- Whether an activation of a lower phase, of one of these tasks, has not retired or may still be spawned (R1, R240, R265, log 51). -/
def lowerActive (s : State) (a : Act) (run : Nat) (l : List Nat) : Bool :=
  ((runActs s run).any fun b => b.status != .retired && l.contains b.stamp.task && phaseLt (phaseOf b.stamp) (phaseOf a.stamp))
    || (runActs s run).any fun b => l.any fun t =>
      phaseLt (b.stamp.inst, t) (phaseOf a.stamp) && maySpawnInto s run (b.stamp.inst, t)

/-- The start limits of STAGED tensors (R192, R240). -/
def stagedOk (s : State) (r : Run) (a : Act) : Bool :=
  r.image.tensors.all fun t =>
    t.order != .staged ||
      (let rs := t.readers.getD []
       let ws := t.writers.getD []
       if ws.contains a.stamp.task then !speculative s a && !lowerActive s a r.num (rs ++ ws)
       else !rs.contains a.stamp.task || !lowerActive s a r.num ws)

/-- Whether an activation may come to a core: one that runs beside another of its stamp, and a handler, waits until no live store is
read by some parties only (R269, R380, log 43). -/
def mayJoin (s : State) (a : Act) : Bool := homeOnly s.dev || !(hasKin s a || isHandler a)

/-- Whether an activation may be placed, cores apart (R192, R262, R263). -/
def startable (s : State) (a : Act) : Bool :=
  match actRun s a with
  | none => false
  | some r =>
    booted s.dev && a.place.isNone && (a.status = .pending || a.status = .frozen)
      && (isHandler a || r.instants.any fun i => i.num = a.stamp.inst)
      && (!a.onlyAtRidge || atRidge s a) && stagedOk s r a && mayJoin s a
      && (isHandler a || !(s.dev.notices.any fun x => x.run = r.num && x.stamp = a.stamp))

/-- The activations of a core. -/
def coreActs (s : State) (core : Nat) : List Act := (acts s).filter (onCore core)

/-- The free physical banks of a core, ascending (R228). -/
def freeBankList (c : Core) : List Nat :=
  (List.range 16).filter fun b => if h : b < 16 then c.banks[b] = .free else false

/-- The banks an activation holds. -/
def bankCount (a : Act) : Nat := match a.place with | some p => p.banks.length | none => 0

/-- Whether a core's die is in the run's mask, the core is not excluded and no other core is pinned (R192). -/
def coreAllowed (s : State) (r : Run) (a : Act) (core : Nat) : Bool :=
  !(getCore s.dev core).excluded && r.dieMask.getLsbD (dieOf core)
    && (match pinOf r.image a.task with | some v => v = core | none => true)

/-- Whether a core has a slot, banks, feeds, tiles and the array for an activation, `gone` taken away (R192, R194,
R312, R339). -/
def coreHolds (s : State) (a : Act) (core : Nat) (gone : Option Act) : Bool :=
  let here := (coreActs s core).filter fun x => match gone with | some g => x.key != g.key | none => true
  let extra := match gone with | some g => bankCount g | none => 0
  let need := match actRun s a with | some r => taskBanks r.image a.task | none => 0
  decide (here.length < 8)
    && decide (need ≤ (freeBankList (getCore s.dev core)).length + extra)
    && decide ((here.map (feedCount s)).foldl (· + ·) 0 + feedCount s a ≤ 8)
    && !(here.any fun x => (ownedTiles s x).any fun t => (ownedTiles s a).contains t)
    && !(ownsArray s a && here.any (ownsArray s))

/-- Whether a core is awake. -/
def isAwake (c : Core) : Bool := c.power = .awake

/-- Whether a core can take an activation now (R192). -/
def fits (s : State) (a : Act) (core : Nat) : Bool :=
  match actRun s a with
  | some r => isAwake (getCore s.dev core) && coreAllowed s r a core && coreHolds s a core none
  | none => false

/-- The cores of a die. -/
def dieCores (die : Nat) : List Nat := (List.range 8).map fun i => 8 * die + i

/-- The eligible core with the fewest occupied slots, lowest number first (R192). -/
def leastLoaded (s : State) : List Nat → Option Nat
  | [] => none
  | c :: rest => match leastLoaded s rest with
    | some b => if (coreActs s b).length < (coreActs s c).length then some b else some c
    | none => some c

/-- The core of a die on which an activation is placed. -/
def bestCore (s : State) (die : Nat) (a : Act) : Option Nat := leastLoaded s ((dieCores die).filter (fits s a))

/-- Whether some core of the device can take an activation now. -/
def fitsAnywhere (s : State) (a : Act) : Bool := (List.range 32).any (fits s a)

/-! ### Placement and restoring (R192, R339, R388, R393) -/

/-- The lowest free slot of a core. -/
def lowestSlot (s : State) (core : Nat) : Option Nat :=
  (List.range 8).find? fun k => !((coreActs s core).any fun x => match x.place with | some p => p.slot = k | none => false)

/-- Take physical banks (R192). -/
def ownBanks (v : Vector BankState 16) (l : List Nat) : Vector BankState 16 :=
  l.foldl (fun v b => if h : b < 16 then v.set b .owned h else v) v

/-- Set tiles of a core. -/
def setTiles (v : Vector Tile 16) (l : List (AReg × Tile)) : Vector Tile 16 :=
  l.foldl (fun (v : Vector Tile 16) p => v.set p.1.val p.2) v

/-- The core after an activation takes its banks, tiles and array (R339). -/
def claimCore (s : State) (a : Act) (c : Core) (banks : List Nat) : Core :=
  let c1 := { c with
    banks := ownBanks c.banks banks
    tiles := setTiles c.tiles ((ownedTiles s a).map fun t => (t, Tile.init)) }
  if ownsArray s a then { c1 with w0 := Bank.empty, w1 := Bank.empty, latches := Vector.replicate 8 0 } else c1

/-- The saved parts of the core's state come back (R363, R392, R393). -/
def restoreCore (c : Core) (v : Saved) : Core :=
  let c1 := { c with tiles := setTiles c.tiles v.tiles }
  match v.banks with
  | some b => { c1 with w0 := b.1, w1 := b.2, latches := v.latches }
  | none => c1

/-- A feed as it comes back: an inbound one reads again from its position (R393). -/
def resumedFeed (f : Feed) : Feed := if f.batten.out then f else { f with buf := [], fault := none }

/-- An activation resumes from its context in the slot it has been given (R377, R393): one whose trap is not
served stays frozen. -/
def resumeSaved (s : State) (a : Act) (core : Nat) (v : Saved) : State :=
  let mem := v.scratch.foldl (fun m x => memWrite m (scratchAddr a x.1) x.2) s.dev.mem
  let s1 := { s with dev := putCore { s.dev with mem := mem, bad := s.dev.bad ++ v.bad.map (scratchAddr a) } core (restoreCore (getCore s.dev core) v) }
  let a := { a with feeds := mapVec (Option.map resumedFeed) a.feeds }
  if a.frozen.isSome then putAct s1 { a with saved := none }
  else
    let s2 := putAct s1 { thawAct a a.adv with saved := none, handle := 0 }
    match actRun s2 a with
    | some r => { s2 with dev := putRun s2.dev (freeHandles r a.key) }
    | none => s2

/-- What the cores of a core's die hold may miss the stores that an activation which comes to this core has made elsewhere (R270). -/
def missDie (d : Dev) (core : Nat) : Dev :=
  (dieCores (dieOf core)).foldl (fun d c => putCore d c { getCore d c with l1Die := (getCore d c).l1.map (·.1) }) d

/-- The activations of a stamp that run beside one another read live memory at the home from then on (R269, R380). -/
def readAtHome (s : State) (k : ActKey) : State :=
  let f := fun (a : Act) => if kin a.key k then { a with atHome := true } else a
  { s with act := f s.act, dev := { s.dev with others := s.dev.others.map f } }

/-- Place an activation on a core (R192); the core's live lines go, so that it reads nothing older than it has read or written
elsewhere (R267, R269). One that has run elsewhere, or carries another's stamp, may have stores that the die's cores miss. -/
def placeOn (s : State) (a : Act) (core : Nat) : State :=
  match actRun s a, lowestSlot s core with
  | some r, some k =>
    let banks := (freeBankList (getCore s.dev core)).take (taskBanks r.image a.task)
    let a1 := { a with place := some { core := core, slot := k, banks := banks }, atHome := false }
    let d := dropLines (putCore s.dev core (claimCore s a (getCore s.dev core) banks)) core
    let s1 := putAct { s with dev := if a.saved.isSome || isHandler a then missDie d core else d } a1
    let s2 := match a.saved with
      | some v => resumeSaved s1 a1 core v
      | none => putAct s1 { a1 with status := .ready, pc := taskEntry r.image a.task }
    if hasKin s a then readAtHome s2 a.key else s2
  | _, _ => s

/-! ### Parking and saving (R194, R385-R388, R392) -/

/-- Whether the scratch plan keeps a buffer at a bundle number for a task (R229, R392). -/
def bufferLive (task n : Nat) (b : ScratchBuf) : Bool :=
  (b.task = none || b.task = some task) && decide (b.first ≤ n) && decide (n ≤ b.last)

/-- The buffers the context image of an activation keeps, in plan order (R392). -/
def savedBuffers (s : State) (a : Act) : List ScratchBuf :=
  match actRun s a with
  | some r => r.image.scratch.filter (bufferLive a.task (bundleNumber r.image.code (r.image.code.length + 1) 0 a.pc 0))
  | none => []

/-- The scratch bytes of one buffer that are not blank, by scratch offset. -/
def bufferCells (s : State) (a : Act) (b : ScratchBuf) : List Host.Cell :=
  let lo := b.bank * bankBytes + b.offset
  (memSlice s.dev.mem (scratchAddr a lo) b.size).map fun c => (c.1 + lo, c.2)

/-- The scratch offsets of one buffer's bytes that hold an uncorrectable error (R384). -/
def badOffsets (s : State) (a : Act) (b : ScratchBuf) : List Nat :=
  let lo := b.bank * bankBytes + b.offset
  ((List.range b.size).filter fun i => s.dev.bad.contains (scratchAddr a (lo + i))).map (lo + ·)

/-- What a context image keeps of an activation beyond its registers (R392). -/
def savedOf (s : State) (a : Act) : Saved :=
  let c := getCore s.dev (actCore a)
  { scratch := ((savedBuffers s a).flatMap (bufferCells s a)).foldl (fun m x => memWrite m x.1 x.2) []
    tiles := (ownedTiles s a).map fun t => (t, c.tiles[t.val])
    banks := if ownsArray s a then some (c.w0, c.w1) else none
    latches := c.latches, image := none, seq := a.seq, memx := []
    bad := (savedBuffers s a).flatMap (badOffsets s a) }

/-- Whether what R387 waits for is over: array commands, outbound entries, interlocked results but those of a
pending ORDERED ATOMR and of a destination that stays under interlock, timed loads on their way (R286), and live accesses that
its core alone, or its die, can read so far: it would not find them elsewhere (R269). -/
def settled (s : State) (a : Act) : Bool :=
  !arrayBusy s.dev a
    && (a.feeds.toList.all fun f => match f with | some x => !x.batten.out || x.buf.isEmpty | none => true)
    && (a.pend.all fun p => match p.wait with | .atomr _ _ => true | .never _ => true | _ => false)
    && a.inflight.all (·.arrived) && !(s.dev.liveq.any (reaches (actCore a)))

/-- Give an activation a handle, where it has none (R383); `none` while every entry is taken. -/
def giveHandle (s : State) (a : Act) : Option (State × Act) :=
  if a.handle != 0 then some (s, a)
  else match actRun s a with
    | none => none
    | some r => (takeHandle r a.key).map fun x =>
        let a1 := { a with handle := x.2 }
        (putAct { s with dev := putRun s.dev x.1 } a1, a1)

/-- A feed as a context keeps it: an inbound one without its buffer, its first held failure noted (R323, R390). -/
def savedFeed (f : Feed) : Feed :=
  if f.batten.out then f else { f with buf := [], fault := f.buf.findSome? (·.fault) }

/-- An activation as its context keeps it. -/
def savedAct (s : State) (a : Act) : Act :=
  { a with
    saved := some (savedOf s a), feeds := mapVec (Option.map savedFeed) a.feeds, waitSince := s.dev.cycle
    status := if a.frozen.isSome then .frozen else .pending, sinceRequest := 0 }

/-- Save an activation and free its slot (R194, R387). -/
def saveAct (s : State) (a : Act) : State := leaveSlot s (savedAct s a)

/-- A pre-emption lands: the slot parks and its results in flight enter the snapshot buffer (R387). -/
def parkAct (s : State) (a : Act) : State :=
  match giveHandle s a with
  | none => s
  | some (s1, a1) =>
    let a2 := { a1 with
      status := .parked, snapshot := a1.snapshot ++ toSnapshot a1
      inflight := a1.inflight.filter fun f => !f.arrived, preempt := false, sinceRequest := 0 }
    let s2 := putAct (yieldCore s1 a2) a2
    match a.place with
    | some p => clearRequest s2 p.core p.slot
    | none => s2

/-- The resident service saves a parked or frozen slot once the waits of R387 are over (R194, R387). -/
def serviceSave (s : State) (a : Act) : State :=
  match giveHandle s a with
  | none => s
  | some (s1, a1) => if settled s1 a1 then saveAct s1 a1 else s

/-! ### Requests and wakes (R194, R195) -/

/-- Whether taking `v` away from its core would make `a` eligible there (R194). -/
def wouldFit (s : State) (a v : Act) : Bool :=
  match actRun s a, v.place with
  | some r, some p => decide (p.core < 32) && isAwake (getCore s.dev p.core) && coreAllowed s r a p.core
      && coreHolds s a p.core (some v)
  | _, _ => false

/-- The victim of R194 among a list: the lowest L, of equal L the highest stamp. -/
def worstAct (s : State) : List Act → Option Act
  | [] => none
  | a :: rest => match worstAct s rest with
    | some b =>
      if actLike s a < actLike s b || (actLike s a = actLike s b && stampLt b.stamp a.stamp) then some a else some b
    | none => some a

/-- Non-speculative activations that wait for a slot (R194, R195). -/
def waiters (s : State) : List Act := (acts s).filter fun a => startable s a && !speculative s a && !fitsAnywhere s a

/-- The instructions of an activation's next bundle whose clocks are present. -/
def nextPresent (s : State) (a : Act) : List Instr :=
  let t := { s with act0 := a, dev0 := s.dev }
  match fetchBundle (codeOf s a) a.pc with
  | .ok ws => (ws.filterMap fun w => (decodeWord w).map (·.instr)).filter fun i =>
      match structural t i with
      | .go _ p => p
      | .trap _ _ => false
  | _ => []

/-- Whether an activation stalls on a value-returning ORDERED atomic (R256, R385). -/
def stalledOnAtomr (s : State) (a : Act) : Bool :=
  let regs := a.pend.filterMap fun p => match p.wait with | .atomr _ _ => some p.dest | _ => none
  !regs.isEmpty && (nextPresent s a).any fun i => (touches i).any fun d => d != .s 0 && regs.contains d

/-- Whether `v` may give way to `a` though it is not speculative: a higher sibling stalled under R256. -/
def yieldsToSibling (s : State) (a v : Act) : Bool :=
  runOfKey a.key = runOfKey v.key && phaseOf a.stamp = phaseOf v.stamp && decide (a.stamp.index < v.stamp.index)
    && !isHandler a && !isHandler v && v.status = .ready && stalledOnAtomr s v

/-- Activations in the slots of a die that a request may remove: speculative ones (R194), and the case of R256. -/
def victims (s : State) (die : Nat) (a : Act) : List Act :=
  (acts s).filter fun v => (speculative s v || yieldsToSibling s a v) && v.status != .parked
    && (match v.place with | some p => dieOf p.core = die && decide (p.core < 32) | none => false) && wouldFit s a v

/-- Request the pre-emption of a victim; a frozen one is saved at once (R194). -/
def requestVictim (s : State) (v : Act) : State :=
  if v.status = .frozen then serviceSave s v
  else putAct s { v with preempt := true, sinceRequest := if v.preempt then v.sinceRequest else 0 }

/-- A run with the likelihoods that the distributors go by in a core cycle: a cell that resolves counts from the following one
(R185). -/
def runAsOf (cycle : Nat) (r : Run) : Run :=
  match r.likeWas with
  | some w => if w.cycle = cycle then
      { r with values := w.values, deadAfter := w.deadAfter, predictors := w.predictors, sites := w.sites }
    else r
  | none => r

/-- The state as the distributors see it (R185). -/
def placementView (s : State) : State :=
  { s with dev := { s.dev with runs := s.dev.runs.map (runAsOf s.dev.cycle) } }

/-- The distributor of a die asks for a pre-emption, unless one that would do is under way (R194). -/
def requestFor (die : Nat) (s : State) (a : Act) : State :=
  let v := placementView s
  if (acts s).any fun x => (x.preempt || x.status = .parked) && wouldFit s a x then s
  else match worstAct v (victims v die a) with
    | some v => requestVictim s v
    | none => s

/-- The gated core a distributor would wake: the lowest of its die that is not excluded; the die is in the mask of every activation
it wakes one for (R195). -/
def wakeCandidate (s : State) (die : Nat) : Option Nat :=
  (dieCores die).find? fun c => (getCore s.dev c).power = .gated && !(getCore s.dev c).excluded

/-- The waking cores of a die that are not excluded, each counted as eight free slots (R195). -/
def wakingSlots (s : State) (die : Nat) : Nat :=
  8 * ((dieCores die).filter fun c =>
    !(getCore s.dev c).excluded && match (getCore s.dev c).power with | .waking _ => true | _ => false).length

/-- Whether an activation may come to some core of a die at all (R192). -/
def mayUseDie (s : State) (die : Nat) (a : Act) : Bool :=
  match actRun s a with
  | some r => (dieCores die).any (coreAllowed s r a)
  | none => false

/-- Whether the distributor of a die may still act in this core cycle. -/
def mayAct (v : Vector Nat 4) (die : Fin 4) (cycle : Nat) : Bool := decide (v[die.val] ≤ cycle)

/-- Speculative activations with L at or above PWAKE.THRESH that have no slot on an awake core (R195). -/
def likelyWaiters (s : State) : List Act :=
  (acts s).filter fun a => startable s a && speculative s a && decide (s.dev.pwake.toNat % 65536 ≤ actLike s a)
    && !fitsAnywhere s a

/-- Non-speculative activations that have waited more than 12,000 cycles (R195). -/
def longWaiters (s : State) : List Act := (waiters s).filter fun a => decide (a.waitSince + 12000 < s.dev.cycle)

/-- The activations for which the distributor of a die wakes cores: those of both cases of R195 that may come to the die. -/
def wakers (s : State) (die : Nat) : List Act := (longWaiters s ++ likelyWaiters s).filter (mayUseDie s die)

/-- The distributor of a die starts a wake where the cores that are waking have no room for all that wait, at most one in a core
cycle (R195). -/
def startWake (s : State) (die : Fin 4) : State :=
  if !mayAct s.dev.wokeAt die s.dev.cycle || (wakers (placementView s) die.val).length ≤ wakingSlots s die.val then s
  else match wakeCandidate s die.val with
    | some c =>
      let d := putCore s.dev c { getCore s.dev c with power := .waking (s.dev.cycle + 12000) }
      { s with dev := { d with wokeAt := d.wokeAt.set die.val (s.dev.cycle + 1) } }
    | none => s

/-- The activations a distributor may place now. -/
def placeable (s : State) (die : Nat) : List Act := (acts s).filter fun a => startable s a && (bestCore s die a).isSome

/-- The activation a distributor chooses (R191, R192). -/
def choiceOf (s : State) (die : Fin 4) : Option Act := chooseAct s s.dev.pointers[die.val] (placeable s die.val)

/-- The dies of lower number. -/
def lowerDies (die : Fin 4) : List (Fin 4) := (List.finRange 4).filter fun d => decide (d < die)

/-- Whether a lower die that may still choose in this cycle chooses the same activation: it is that die's (R192). -/
def contested (s : State) (die : Fin 4) (a : Act) : Bool :=
  (lowerDies die).any fun d => mayAct s.dev.placedAt d s.dev.cycle && (choiceOf s d).any fun b => b.key = a.key

/-- Whether the die would have chosen an activation that a lower die has placed in this cycle: it chooses again in the next
(R192). -/
def lostChoice (s : State) (die : Fin 4) (a : Act) : Bool :=
  (lowerDies die).any fun d => s.dev.placedAt[d.val] = s.dev.cycle + 1 &&
    match s.dev.placedKey[d.val].bind (findAct s) with
    | some w =>
      let w0 := { w with place := none, status := .pending }
      (bestCore s die.val w0).isSome && prefers s s.dev.pointers[die.val] w0 a
    | none => false

/-- NON_SPECULATIVE_WAIT_EXPIRY: some activation has waited its time out for a slot on the die (R195). -/
def execNonSpeculativeWaitExpiry (die : Fin 4) (s : State) : Host.Outcome State Fault Refusal :=
  .next (if (longWaiters (placementView s)).any (mayUseDie s die.val) then startWake s die else s)

/-! ### Power and banks (R195, R228, R434) -/

/-- CORE_POWER_GATE: a core empty for 60,000 cycles, or excluded and empty (R195, R434). -/
def execCorePowerGate (core : Fin 32) (s : State) : Host.Outcome State Fault Refusal :=
  .next (
    let c := getCore s.dev core.val
    if isAwake c && (coreActs s core.val).isEmpty && (c.excluded || decide (c.emptySince + 60000 ≤ s.dev.cycle)) then
      { s with dev := putCore s.dev core.val { c with power := .gated, l1 := [], l1Die := [], l1Staged := [], l1Pref := [] } }
    else s)

/-- CORE_WAKE_COMPLETE: 12,000 cycles after the wake began (R195). -/
def execCoreWakeComplete (core : Fin 32) (s : State) : Host.Outcome State Fault Refusal :=
  .next (
    let c := getCore s.dev core.val
    match c.power with
    | .waking t =>
      if t ≤ s.dev.cycle then
        { s with dev := putCore s.dev core.val { c with power := .awake, emptySince := s.dev.cycle } }
      else s
    | _ => s)

/-- SCRATCH_BANK_CLEARED: 512 cycles after its release a bank is zero and free (R228). -/
def execScratchBankCleared (core : Fin 32) (bank : Fin 16) (s : State) : Host.Outcome State Fault Refusal :=
  .next (
    let c := getCore s.dev core.val
    match c.banks[bank.val] with
    | .clearing t =>
      if t ≤ s.dev.cycle then
        let d := putCore s.dev core.val { c with banks := c.banks.set bank.val .free }
        { s with dev := { d with mem := memClear d.mem (bankAddr core.val bank.val 0) bankBytes } }
      else s
    | _ => s)

/-! ### Landing of pre-emptions (R385-R387, R405) -/

/-- YIELD, WAIT and END (R372). -/
def isDeliverer : Instr → Bool
  | .yield _ | .endAct _ | .waitGen .. | .waitRidge _ | .waitEq .. | .waitGe .. | .waitFeed .. => true
  | _ => false

/-- Whether a slot reads or writes the destination a deferred trap left under interlock (R264, R384). -/
def meetsDest (a : Act) (r : TrapRec) (i : Instr) : Bool :=
  (touches i).any fun d => d != .s 0 && a.pend.any fun p => p.dest = d && p.wait = Awaiting.never r

/-- A FEED trap met by the array (R355). -/
def arrayTrap (r : TrapRec) : Bool := recCode r = codeFEED && r.info.toNat.testBit 19

/-- An MTX, ACC or AREAD member, or a slot that pops, pushes or binds a feed (R355). -/
def feedOrArray (i : Instr) : Bool :=
  unitOf i = .matrix || match i with
    | .vldFeedPop .. | .vstFeedPush .. | .fbind .. => true
    | _ => false

/-- Whether the present slots make the bundle a delivery bundle for a trap (R372). -/
def delivers (a : Act) (present : List Instr) (r : TrapRec) : Bool :=
  !a.deferredHeld.isEmpty || present.any isDeliverer || present.any (meetsDest a r)
    || (arrayTrap r && present.any feedOrArray)

/-- The oldest pending trap for which the bundle is a delivery bundle (R372). -/
def dueDeferred (a : Act) (present : List Instr) : Option TrapRec := a.deferred.find? (delivers a present)

/-- Whether a slot is ready (R193): neither frozen nor stalled on an unsatisfied WAIT. A WAIT is a delivery bundle (R372), so a trap
that has become pending ends its stall. -/
def isReady (s : State) (a : Act) : Bool :=
  match a.status with
  | .ready => true
  | .waiting c => !a.deferred.isEmpty || (match waitState s a c with | .ok b => b | .error _ => true)
  | _ => false

/-- Whether an END meets a held failure of a feed, which is a trap and no stall (R323). -/
def endFails (a : Act) : Bool := match checkEndFeeds a with | some (_, .fault _ _) => true | _ => false

/-- Whether an activation stalls at END under R334. -/
def stalledAtEnd (s : State) (a : Act) : Bool :=
  endBusy s.dev a && !endFails a && (nextPresent s a).any fun i => match i with | .endAct _ => true | _ => false

/-- The slots of a fetched bundle whose bytes hold an uncorrectable error (R384). -/
def badSlots (d : Dev) (run : Option Nat) (pc n : Nat) : List Nat :=
  (List.range n).filter fun i =>
    d.badCode.any fun x => x.1 = run && decide (pc + 4 * i ≤ x.2) && decide (x.2 < pc + 4 * i + 4)

/-- Whether an instruction reads a register whose value holds an uncorrectable error (R384). -/
def readsBadReg (a : Act) (x : Instr) : Bool :=
  (readsOf x).any fun r => match r with
    | .s d => d != 0 && (a.badRegs.any fun x => x.1 = .s d)
    | .v d => a.badRegs.any fun x => x.1 = .v d
    | _ => false

/-- Whether every slot of an activation's next bundle is fetched, decoded and passes the structural checks (R370). -/
def nextStructural (s : State) (a : Act) : Bool :=
  let t := { s with act0 := a, dev0 := s.dev }
  match fetchBundle (codeOf s a) a.pc with
  | .ok ws => (badSlots s.dev (runOfKey a.key) a.pc ws.length).isEmpty && ws.all fun w => match decodeWord w with
    | some x => (match structural t x.instr with | .go _ _ => true | .trap _ _ => false)
    | none => false
  | _ => false

/-- Whether a bundle that stalled at a point of R385 when it was last examined still would: no trap comes first (R370, R403). -/
def stillStalled (s : State) (a : Act) : Bool :=
  a.stalledAtPoint && nextStructural s a && (dueDeferred a (nextPresent s a)).isNone && !((nextPresent s a).any (readsBadReg a))
    && (stalledOnAtomr s a || stalledAtEnd s a)

/-- Whether a slot stands at a pre-emption point of R385 other than a forced one. -/
def atPoint (s : State) (a : Act) : Bool :=
  match a.status with
  | .waiting _ => !isReady s a
  | .ready => a.boundary || stillStalled s a
  | _ => false

/-- Whether the next boundary is a forced point (R386). -/
def forcedPoint (a : Act) : Bool := a.status = .ready && decide (16384 < a.sinceRequest)

/-- The activation in a slot. -/
def slotAct (s : State) (core slot : Nat) : Option Act :=
  (acts s).find? fun a => match a.place with | some p => p.core = core && p.slot = slot | none => false

/-- A request lands: what is due at the boundary lands first (R376); while a timed load holds the pipeline, it waits. -/
def landPreempt (s : State) (a : Act) : State :=
  let s1 := landDue a.inflight.length a.key s
  match findAct s1 a.key with
  | some b => if frozenByTimedLoad b then s else parkAct s1 b
  | none => s

/-- PREEMPTION_LANDS: at its point a requested slot parks; a parked slot, or a frozen one with a request, is saved by the
resident service once the waits of R387 are over (R194, R387, R405). -/
def execPreemptionLands (core : Fin 32) (slot : Fin 8) (s : State) : Host.Outcome State Fault Refusal :=
  .next (match slotAct s core.val slot.val with
    | none => s
    | some a =>
      if a.status = .parked || (a.status = .frozen && a.preempt) then serviceSave s a
      else if a.preempt && !a.passEnd && atPoint s a then landPreempt s a
      else s)

/-- FORCED_PREEMPTION_POINT (R386). -/
def execForcedPreemptionPoint (core : Fin 32) (slot : Fin 8) (s : State) : Host.Outcome State Fault Refusal :=
  .next (match slotAct s core.val slot.val with
    | none => s
    | some a => if a.preempt && !a.passEnd && forcedPoint a then landPreempt s a else s)

/-- PREEMPT: the resident service asks for the pre-emption of a slot (R405). -/
def execPreempt (core : Fin 32) (slot : Fin 8) (s : State) : Host.Outcome State Fault Refusal :=
  .next (if booted s.dev then (requestPreempt s core.val slot.val).1 else s)

end Sys2Proof.Machine
end

