-- ==== Sys2Proof/Machine/Context.lean ====
section
/-! DEFINITION. The context image in memory (R390-R393): its bytes, and an activation read back from them. -/
namespace Sys2Proof.Machine

/-- MAGIC (R391). -/
def ctxMagic : Nat := 0x31585443
/-- Where the variable sections begin (R390). -/
def ctxFixed : Nat := 22784

/-- `n` zero bytes. -/
def zeros (n : Nat) : List Byte := List.replicate n 0

/-- Bytes up to a multiple of 256 (R392). -/
def padTo256 (bs : List Byte) : List Byte := bs ++ zeros ((256 - bs.length % 256) % 256)

/-- The byte of a clock (R390). -/
def clockByte (c : Clock) : Nat :=
  (if c.defd then 128 else 0) + c.parent.val * 8 + c.role.val * 2 + (if c.pres then 1 else 0)

/-- The clock of a byte (R390); a PARENT of 14 or 15, which names no clock, is taken modulo 14, and a ROLE of 11, to which R125 gives no
meaning, is kept and makes the clock half of no pair (log 56). -/
def clockOfByte (x : Nat) : Clock :=
  { defd := bitOf x 7, parent := Fin.ofNat 14 (x / 8 % 16), role := Fin.ofNat 4 (x / 2 % 4), pres := bitOf x 0 }

/-- A trap record: TCAUSE, TPC, TADDR, TSTAMP, TINFO. -/
def recordBytes (r : TrapRec) : List Byte :=
  bytesOfNat 8 r.cause.toNat ++ bytesOfNat 8 r.pc.toNat ++ bytesOfNat 8 r.addr.toNat
    ++ bytesOfNat 8 r.stamp.toNat ++ bytesOfNat 8 r.info.toNat

/-- The trap record at a byte offset; the reserved bits of TCAUSE read as zero (R6, R373). -/
def recordAt (bs : List Byte) (o : Nat) : TrapRec :=
  { cause := BitVec.ofNat 64 (natAt bs o 8 % 2 ^ 21), pc := BitVec.ofNat 64 (natAt bs (o + 8) 8)
    addr := BitVec.ofNat 64 (natAt bs (o + 16) 8), stamp := BitVec.ofNat 64 (natAt bs (o + 24) 8)
    info := BitVec.ofNat 64 (natAt bs (o + 32) 8) }

/-- Bytes 256-8,703: scalar and vector registers. -/
def regBytes (a : Act) : List Byte :=
  ((List.range 32).flatMap fun i => bytesOfNat 8 (if h : i < 32 then (if i = 0 then 0 else a.s[i].toNat) else 0))
    ++ a.v.toList.flatMap fun x => bytesOfNat 256 x.toNat

/-- Bytes 8,704-8,815: tags and clocks; a tile the activation does not own stands as stale. -/
def tagBytes (a : Act) (v : Saved) : List Byte :=
  let aTags : List Tag := (List.range 16).map fun t =>
    match v.tiles.find? (fun p => p.1.val = t) with | some p => p.2.tag | none => tagStale
  let tags : List Tag := (tagUniversal :: a.sTag.toList.drop 1) ++ a.vTag.toList ++ aTags ++ a.eTag.toList
  tags.map (fun t => BitVec.ofNat 8 t.toNat)
    ++ zeros 8 ++ a.clocks.toList.map (fun c => BitVec.ofNat 8 (clockByte c)) ++ zeros 2

/-- One loop level: count, index, start, length. -/
def levelBytes (l : Level) : List Byte :=
  bytesOfNat 8 l.count.toNat ++ bytesOfNat 8 l.index.toNat ++ bytesOfNat 4 l.start ++ bytesOfNat 2 l.len ++ zeros 2

/-- Bytes 8,816-9,023: loop levels from the outermost, FPC, VPART, SEQ, the forced-point count. -/
def controlBytes (a : Act) : List Byte :=
  a.loops.reverse.flatMap levelBytes ++ zeros (24 * (6 - a.loops.length))
    ++ bytesOfNat 8 a.fpc.toNat ++ bytesOfNat 8 a.vpart.toNat ++ bytesOfNat 4 a.seq.toNat
    ++ bytesOfNat 4 a.sinceRequest ++ zeros 40

/-- One feed in 96 bytes (R390). -/
def feedBytes (e : EReg) (f : Option Feed) : List Byte :=
  match f with
  | none => zeros 96
  | some f =>
    f.raw.take 64 ++ bytesOfNat 8 f.pos
      ++ bytesOfNat 8 (1 + (if f.batten.out then 2 else 0) + (if f.fault.isSome then 4 else 0))
      ++ (match f.fault with
        | some x => bytesOfNat 8 x.2 ++ bytesOfNat 8 (feedInfo e x.1 feedFAULT)
        | none => zeros 16)

/-- Bytes 9,024-10,111: pending deferred traps and feeds. -/
def pendingBytes (a : Act) : List Byte :=
  a.deferred.flatMap recordBytes ++ zeros (40 * (8 - a.deferred.length))
    ++ ([0, 1, 2, 3, 4, 5, 6, 7] : List EReg).flatMap fun e => feedBytes e (feedOf a e)

/-- The number of a destination in a snapshot entry. -/
def destCode : Dest → Nat
  | .s r => r.val
  | .v r => 32 + r.val
  | .latches => 64

/-- One snapshot entry in 264 bytes; a stale result stands under tag 31. -/
def snapBytes (f : InFlight) : List Byte :=
  bytesOfNat 256 f.val.toNat
    ++ bytesOfNat 8 (destCode f.dest + (if f.stale then tagStale else f.tag).toNat * 256 + f.due % 65536 * 65536 + 2 ^ 63)

/-- The snapshot buffer in the order of issue, at most 48 entries (R376). -/
def snapshotList (a : Act) : List InFlight := (sortIssued a.snapshot).take 48

/-- Bytes 10,112-22,783: the snapshot buffer. -/
def snapshotBytes (a : Act) : List Byte :=
  (snapshotList a).flatMap snapBytes ++ zeros (264 * (48 - (snapshotList a).length))

/-- The scratch section (R392). -/
def scratchBytes (bufs : List ScratchBuf) (v : Saved) : List Byte :=
  bufs.flatMap fun b => padTo256 (memReadBytes v.scratch (b.bank * bankBytes + b.offset) b.size)

/-- One tile: E, column scales, raw elements in row-major order (R358, R392). -/
def tileBytes (x : Tile) : List Byte :=
  bytesOfNat 2 (wrapNat 16 x.e) ++ zeros 254
    ++ (List.range 384).flatMap (fun j => bytesOfNat 4 (getScale x j))
    ++ (List.range 24576).flatMap fun n => bytesOfNat 16 (rawOfElem (sget Elem.zero x.elems n))

/-- The array section (R392): empty when the task does not declare the array. -/
def arrayBytes (v : Saved) : List Byte :=
  match v.banks with
  | none => []
  | some (w0, w1) =>
    padTo256 (v.latches.toList ++ bytesOfNat 8 (w0.fmt.getD 0) ++ bytesOfNat 8 (w1.fmt.getD 0))
      ++ (w0.entries ++ w1.entries).flatMap (fun x => bytesOfNat 256 x.toNat)
      ++ v.tiles.flatMap fun p => tileBytes p.2

/-- The header's flags (R391). -/
def ctxFlags (a : Act) (spec : Bool) : Nat :=
  (match a.frozen with | some f => if f.stage = .held then 1 else 0 | none => 0) + (if spec then 2 else 0)
    + (if a.pend.any fun p => match p.wait with | .atomr _ _ => true | _ => false then 4 else 0)

/-- The context image of an activation with its saved parts (R390-R392). -/
def imageBytes (s : State) (a : Act) (v : Saved) : List Byte :=
  let scr := scratchBytes (savedBuffers s a) v
  let arr := arrayBytes v
  let size := ctxFixed + scr.length + arr.length
  let header :=
    bytesOfNat 4 ctxMagic ++ bytesOfNat 4 size ++ bytesOfNat 6 a.stamp.inst ++ bytesOfNat 1 a.stamp.task
      ++ bytesOfNat 3 a.stamp.index ++ bytesOfNat 2 a.incarnation.toNat ++ bytesOfNat 2 (actLike s a)
      ++ bytesOfNat 1 (ctxFlags a (speculative s a)) ++ bytesOfNat 1 a.loops.length ++ bytesOfNat 8 a.weight.toNat
      ++ recordBytes (match a.frozen with | some f => f.record | none => TrapRec.zero)
      ++ bytesOfNat 8 a.pc ++ bytesOfNat 4 ctxFixed ++ bytesOfNat 4 scr.length
      ++ bytesOfNat 4 (if v.banks.isSome then ctxFixed + scr.length else 0) ++ bytesOfNat 4 arr.length ++ zeros 160
  header ++ regBytes a ++ tagBytes a v ++ controlBytes a ++ pendingBytes a ++ snapshotBytes a ++ scr ++ arr

/-! ### Reading an image back (R393) -/

/-- A tag byte: 14 to 29 is loaded as 31 (R393). -/
def tagAt (bs : List Byte) (o : Nat) : Tag :=
  let t := natAt bs o 1 % 32
  if 14 ≤ t && t ≤ 29 then tagStale else BitVec.ofNat 5 t

/-- A loop level at an offset. -/
def levelAt (bs : List Byte) (o : Nat) : Level :=
  { count := BitVec.ofNat 64 (natAt bs o 8), index := BitVec.ofNat 64 (natAt bs (o + 8) 8)
    start := natAt bs (o + 16) 4, len := natAt bs (o + 20) 2 }

/-- A destination of its number. -/
def destOf (n : Nat) : Dest :=
  if n < 32 then .s (Fin.ofNat 32 n) else if n < 64 then .v (Fin.ofNat 32 (n - 32)) else .latches

/-- The snapshot entry `i`, where it is valid; entries stand in the order of their issue. -/
def snapAt (bs : List Byte) (memx : List (Option TrapRec)) (i : Nat) : Option InFlight :=
  let o := 10112 + 264 * i
  let x := natAt bs (o + 256) 8
  if x / 2 ^ 63 = 0 then none
  else some { dest := destOf (x % 128), val := BitVec.ofNat 2048 (natAt bs o 256), tag := tagAt bs (o + 257)
              due := x / 65536 % 65536, issued := 0, stale := false
              timed := false, arrived := true, memx := memx.getD i none }

/-- The feed of an image: its batten, position and held failure; the SEQ of its elements (R321) stays with the
activation. -/
def feedAt (bs : List Byte) (old : Option Feed) (e : EReg) : Option Feed :=
  let o := 9344 + 96 * e.val
  let flags := natAt bs (o + 72) 8
  if flags % 2 = 0 then none
  else
    let raw := (bs.drop o).take 64
    match parseBatten raw with
    | none => old
    | some b => some {
        raw := raw, batten := b, pos := natAt bs (o + 64) 8, buf := []
        seq := match old with | some f => f.seq | none => 0
        bound := match old with | some f => f.bound | none => 0
        fault := if flags / 4 % 2 = 1 then some (natAt bs (o + 89) 1, natAt bs (o + 80) 8) else none
        nextAt := 0 }

/-- The clock `i` of an image: k0 is always defined and present (R125). -/
def clockAtByte (bs : List Byte) (i : Fin 14) : Clock :=
  if i = 0 then Clock.base else clockOfByte (natAt bs (8800 + i.val) 1)

/-- The deferred traps of an activation that comes back: the image's, then those that have become pending since it was saved;
beyond eight the units keep them (R372). -/
def loadDeferred (l : List TrapRec) (a : Act) : List TrapRec × List TrapRec :=
  let all := l ++ a.deferred ++ a.deferredHeld
  (all.take 8, all.drop 8)

/-- The frozen trap of an activation that comes back: the image's flag bit 0 says whether a fault is held, its record which trap it
is; one that is being delivered is the device's own (R190, R391, R393). -/
def loadFrozen (bs : List Byte) (f : Option Frozen) : Option Frozen :=
  let r := recordAt bs 32
  if natAt bs 22 1 % 2 = 1 then some { record := r, stage := match f with | some x => x.stage | none => .held }
  else match f with
    | some x => if x.stage = .held then none else some { x with record := r }
    | none => none

/-- The registers of an image in an activation's record: reserved bits as a CSR write leaves them (R6, R37), SEQ counted on by
what a handler has used since (R380). -/
def loadRegs (bs : List Byte) (v : Saved) (a : Act) : Act :=
  let depth := min 6 (natAt bs 23 1)
  let traps := loadDeferred (((List.range 8).map fun i => recordAt bs (9024 + 40 * i)).filter fun r => r.cause != 0) a
  { a with
    s := Vector.ofFn fun i => if i.val = 0 then 0 else BitVec.ofNat 64 (natAt bs (256 + 8 * i.val) 8)
    v := Vector.ofFn fun i => BitVec.ofNat 2048 (natAt bs (512 + 256 * i.val) 256)
    sTag := Vector.ofFn fun i => if i.val = 0 then tagUniversal else tagAt bs (8704 + i.val)
    vTag := Vector.ofFn fun i => tagAt bs (8736 + i.val)
    eTag := Vector.ofFn fun i => tagAt bs (8784 + i.val)
    clocks := Vector.ofFn (clockAtByte bs)
    loops := ((List.range depth).map fun l => levelAt bs (8816 + 24 * l)).reverse
    fpc := fpcWrite a.fpc (BitVec.ofNat 64 (natAt bs 8960 8)), vpart := BitVec.ofNat 64 (natAt bs 8968 8 % 8)
    seq := BitVec.ofNat 32 (natAt bs 8976 4) + (a.seq - v.seq), sinceRequest := natAt bs 8980 4
    deferred := traps.1, deferredHeld := traps.2
    feeds := Vector.ofFn fun i => feedAt bs a.feeds[i] i
    snapshot := (List.range 48).filterMap (snapAt bs v.memx)
    incarnation := BitVec.ofNat 16 (natAt bs 18 2), weight := BitVec.ofNat 64 (natAt bs 24 8), pc := natAt bs 72 8
    frozen := loadFrozen bs a.frozen
    status := if (loadFrozen bs a.frozen).isSome = a.frozen.isSome then a.status
      else if a.frozen.isSome then .pending else .frozen }

/-- The scratch section from offset `o` on, buffer by buffer. -/
def loadScratch (bs : List Byte) : List ScratchBuf → Nat → List Host.Cell → List Host.Cell
  | [], _, m => m
  | b :: rest, o, m =>
    loadScratch bs rest (o + (b.size + 255) / 256 * 256)
      (memWriteBytes m (b.bank * bankBytes + b.offset) ((bs.drop o).take b.size))

/-- The stream entries of a bank at offset `o`; an empty bank stays empty. -/
def loadBank (bs : List Byte) (o fmt : Nat) (b : Bank) : Bank :=
  match b.fmt with
  | none => b
  | some _ => { b with
      fmt := some fmt, cur := some fmt
      entries := (List.range b.entries.length).map fun i => BitVec.ofNat 2048 (natAt bs (o + 256 * i) 256) }

/-- One tile at offset `o` (R392). -/
def loadTile (bs : List Byte) (o : Nat) (tag : Tag) : Tile :=
  { elems := (List.range 24576).foldl (fun l n => putElem l n (elemOfRaw (natAt bs (o + 1792 + 16 * n) 16))) []
    e := sextInt 16 (natAt bs o 2)
    scales := (List.range 384).foldl (fun l j =>
      let x := natAt bs (o + 256 + 4 * j) 4
      if x = scaleOne then l else sput l j x) []
    tag := tag, busy := [] }

/-- The tiles from offset `o` on. -/
def loadTiles (bs : List Byte) : List (AReg × Tile) → Nat → List (AReg × Tile)
  | [], _ => []
  | p :: rest, o =>
    (p.1, loadTile bs o (tagAt bs (8768 + p.1.val))) :: loadTiles bs rest (o + 256 + 1536 + 24576 * 16)

/-- The saved parts that an image holds. -/
def loadSaved (bs : List Byte) (bufs : List ScratchBuf) (v : Saved) : Saved :=
  let v1 := { v with scratch := loadScratch bs bufs (natAt bs 80 4) [] }
  match v.banks with
  | none => { v1 with tiles := v.tiles.map fun p => (p.1, { p.2 with tag := tagAt bs (8768 + p.1.val) }) }
  | some (w0, w1) =>
    let o := natAt bs 88 4
    let o1 := o + 256
    let o2 := o1 + 256 * w0.entries.length
    { v1 with
      latches := Vector.ofFn fun i => BitVec.ofNat 8 (natAt bs (o + i.val) 1)
      banks := some (loadBank bs o1 (natAt bs (o + 8) 8) w0, loadBank bs o2 (natAt bs (o + 16) 8) w1)
      tiles := loadTiles bs v.tiles (o2 + 256 * w1.entries.length) }

/-- An activation saved by CTXSV as its image in memory now stands; any other as it is. -/
def fromImage (s : State) (a : Act) : Act :=
  match a.saved with
  | some v => match v.image with
    | some p =>
      let bs := memReadBytes s.dev.mem p (imageBytes s a v).length
      let b := loadRegs bs v a
      { b with saved := some { loadSaved bs (savedBuffers s b) v with seq := b.seq } }
    | none => a
  | none => a

/-- What the record of an activation keeps beside its image: the image holds the pending traps, the record those behind them. -/
def besideImage (a : Act) (v : Saved) : Act :=
  { a with deferred := a.deferredHeld, deferredHeld := [], saved := some { v with seq := a.seq, memx := (snapshotList a).map (·.memx) } }

/-- Write a saved activation's image again, where CTXSV made one. -/
def toImage (s : State) (a : Act) : State :=
  match a.saved with
  | some v => match v.image with
    | some p =>
      putAct { s with dev := { s.dev with mem := memWriteBytes s.dev.mem p (imageBytes s a v) } } (besideImage a v)
    | none => s
  | none => s

end Sys2Proof.Machine
end

