-- ==== Sys2Proof/Machine/Distribute.lean ====
section
/-! DEFINITION. The distributors' placements (R191-R194, R387). -/
namespace Sys2Proof.Machine

/-- A distributor places an activation; one whose context CTXSV has written comes back from that image, as CTXLD reads it (R372,
R387, R393). -/
def placeAgain (s : State) (a : Act) (core : Nat) : State :=
  let y := fromImage s a
  placeOn (putAct s y) y core

/-- A distributor has chosen in this cycle. -/
def markPlaced (s : State) (die : Fin 4) (k : Option ActKey) : State :=
  { s with dev := { s.dev with
    placedAt := s.dev.placedAt.set die.val (s.dev.cycle + 1), placedKey := s.dev.placedKey.set die.val k } }

/-- The placement of a distributor in a core cycle, by the likelihoods of that cycle (R185, R192, R223). -/
def distribute (s : State) (die : Fin 4) : State :=
  let v := placementView s
  if !mayAct s.dev.placedAt die s.dev.cycle then s
  else match choiceOf v die with
    | none => s
    | some a =>
      if contested v die a then s
      else if lostChoice v die a then markPlaced s die none
      else match bestCore v die.val a with
        | some c =>
          let p := movePointer v s.dev.pointers[die.val] a (placeable v die.val)
          let t := markPlaced (placeAgain s a c) die (some a.key)
          { t with dev := { t.dev with pointers := t.dev.pointers.set die.val p } }
        | none => s

/-- DISTRIBUTOR_PLACEMENT: one placement in a core cycle, then the requests and the wake that the remaining work
calls for (R191-R195). -/
def execDistributorPlacement (die : Fin 4) (s : State) : Host.Outcome State Fault Refusal :=
  .next (
    let s1 := distribute s die
    startWake ((waiters (placementView s1)).foldl (requestFor die.val) s1) die)

end Sys2Proof.Machine
end

