-- ==== Sys2Proof/Machine/System.lean ====
section
/-! DEFINITION. The SYS group (R394-R402). -/
namespace Sys2Proof.Machine

/-- The activation a handle names, where the issuer may act on it: a handler on the handle it serves only (R394, R402). -/
def sysTarget (s : State) (h : Word) : Option Act :=
  if isHandler s.act0 && (s.act0.serves != h || h = 0) then none
  else (handleTarget s h).bind fun x => findAct s x.2.2

/-- The frozen activation a handle names; of one that CTXSV saved its image says whether it is (R391, R395). -/
def frozenTarget (s : State) (h : Word) : Option Act := (sysTarget s h).filter fun a => (fromImage s a).frozen.isSome

/-- Whether a record is ILLB with reason 1 (R61, R395). -/
def isOpenBundle (r : TrapRec) : Bool := recCode r = codeILLB && r.info.toNat / 2 ^ 32 % 8 = 1

/-- RFT on a frozen activation: in its slot, or in its context, which changes with it (R395, R397). -/
def resumeByRft (s : State) (x : Act) (mode : Nat) : State :=
  let s1 := returnFromTrap (if x.saved.isSome then putAct s (fromImage s x) else s) x.key mode
  match findAct s1 x.key with
  | some y => if x.saved.isSome then toImage s1 y else s1
  | none => s1

/-- RFT (R395). -/
def execRft (k : KSel) (a b : SReg) (s : State) : Host.Outcome State Fault Refusal :=
  issue (.rft k a b) s fun _ s =>
    let mode := (readS s.act0 b).toNat
    match frozenTarget s (readS s.act0 a) with
    | none => engTrap s 13
    | some x =>
      if 2 ≤ mode then engTrap s 15
      else if mode = 1 && (match (fromImage s x).frozen with | some f => isOpenBundle f.record | none => false) then engTrap s 15
      else resumeByRft s x mode

/-- The deferred traps that END finds pending, those of timed loads that have not landed among them: each is still raised (R372,
R381, R384). -/
def endTraps (a : Act) : List TrapRec :=
  a.deferred ++ a.deferredHeld ++ (a.inflight ++ a.snapshot).filterMap fun f => if f.timed then f.memx else none

/-- A trap of an activation whose END has committed waits for a handler of its own (R211, R379, R381), and a handler's for the
tear-down that both its records are kept for (R382). -/
def orphanTrap (s : State) (a : Act) (r : TrapRec) : State :=
  match runOfKey a.key with
  | none => s
  | some n => { s with dev := { s.dev with orphanTraps := s.dev.orphanTraps ++
      [{ run := n, stamp := a.stamp, record := r, seq := a.seq, met := if isHandler a then some a.trap else none }] } }

/-- An activation ends at once, as at END: its slot is free and its registers are gone (R48, R116, R396). Its pending traps are
raised at once for a handler activation, and for another once it is not speculative (R190, R372). -/
def endNow (s0 : State) (a : Act) : State :=
  let s := if isHandler a then (endTraps a).foldl (fun s r => orphanTrap s a r) s0 else s0
  let b := { a with
    status := .ended, frozen := none, inflight := [], pend := [], snapshot := []
    deferred := if isHandler a then [] else endTraps a, deferredHeld := []
    feeds := Vector.replicate 8 none, saved := none, handle := 0, passEnd := false, boundary := false }
  let s1 := leaveSlot (putAct s b) b
  match (runOfKey a.key).bind (findRun s1.dev) with
  | some r => { s1 with dev := putRun s1.dev (freeHandles r a.key) }
  | none => s1

/-- Whether a live write or an ORDERED entry that an activation issued is still on its way (R258). -/
def onWay (d : Dev) (k : ActKey) : Bool := d.liveq.any (fun q => q.who = k) || d.cellq.any (fun q => q.who = k)

/-- The arrival-word uses of a stamp are forgotten once no activation of it is left but a retired one (R271). -/
def forgetUses (s : State) (run : Nat) (st : Stamp) : State :=
  if (runActs s run).any fun a => a.stamp = st && a.status != .retired then s
  else { s with dev := { s.dev with engineUses := s.dev.engineUses.filter fun u => u.run != run || u.stamp != st } }

/-- A handler activation whose END has committed is gone once its live writes have been performed and its entries accepted; it
holds the ridge until then (R258, R380). -/
def dropEndedHandler (s : State) (k : ActKey) : State :=
  match findAct s k, runOfKey k with
  | some a, some n =>
    if isHandler a && a.status = .ended && !onWay s.dev k then afterChange (forgetUses (removeAct s k) n a.stamp) n else s
  | _, _ => s

/-- Whether an activation's outbound entries are performed. -/
def drained (a : Act) : Bool :=
  a.feeds.toList.all fun f => match f with | some x => !x.batten.out || x.buf.isEmpty | none => true

/-- KILL (R396): of any activation a valid handle names, frozen, parked or saved. -/
def execKill (k : KSel) (a b : SReg) (s : State) : Host.Outcome State Fault Refusal :=
  issue (.kill k a b) s fun _ s =>
    let mode := (readS s.act0 b).toNat
    match sysTarget s (readS s.act0 a) with
    | none => engTrap s 13
    | some x =>
      if mode = 0 then
        if endBusy s.dev x || !drained x || arrayBusy s.dev x then stall s else dropEndedHandler (endNow s (fromImage s x)) x.key
      else if mode = 1 then
        match runOfKey x.key with
        | none => s
        | some n =>
          let own := runOfKey s.act0.key = some n
          let s1 := tearDown s n
          if own then { s1 with iss := { s1.iss with status := .trapped } } else s1
      else engTrap s 15

/-! ### SNAPR and SNAPW (R397) -/

/-- The scratch doubleword `n` of an activation, in its slot or its context. -/
def scratchItem (s : State) (a : Act) (n : Nat) : Nat :=
  match a.saved with
  | some v => memReadNat v.scratch (8 * n) 8
  | none => memReadNat s.dev.mem (scratchAddr a (8 * n)) 8

/-- The tile of an activation with its tag, in its slot or its context; `none` for a tile it does not own. -/
def tileItem (s : State) (a : Act) (t : Nat) : Option Tile :=
  match a.saved with
  | some v => (v.tiles.find? fun p => p.1.val = t).map (·.2)
  | none => if (ownedTiles s a).any fun x => x.val = t then some (getTile s.dev (actCore a) (Fin.ofNat 16 t)) else none

/-- The tag of a number of class 2. -/
def tagItem (s : State) (a : Act) (n : Nat) : Option Tag :=
  if n < 32 then some (tagS a (Fin.ofNat 32 n))
  else if n < 64 then some (tagV a (Fin.ofNat 32 (n - 32)))
  else if n < 80 then some (match tileItem s a (n - 64) with | some t => t.tag | none => tagStale)
  else if n < 88 then some (a.eTag[(Fin.ofNat 8 (n - 80)).val])
  else none

/-- The item a selector names; `none` outside R397. -/
def readItem (s : State) (a : Act) (sel : Nat) : Option Nat :=
  let n := sel % 2 ^ 20
  if sel / 2 ^ 20 % 2 ^ 36 != 0 then none
  else match sel / 2 ^ 56 with
    | 0 => if n < 32 then some (readS a (Fin.ofNat 32 n)).toNat else none
    | 1 => if n < 1024 then some (lane 64 (readV a (Fin.ofNat 32 (n / 32))) (n % 32)) else none
    | 2 => (tagItem s a n).map (·.toNat)
    | 3 => if csrAssigned n then some (csrValue s a n).toNat else none
    | 4 => if h : n < 14 then some (clockByte a.clocks[n]) else none
    | 5 => if 8 * n < scratchExtent s a then some (scratchItem s a n) else none
    | _ => none

/-- Where scratch byte `x` stands in the scratch section of an image whose buffers begin at offset `o` (R392). -/
def scratchPlace : List ScratchBuf → Nat → Nat → Option Nat
  | [], _, _ => none
  | b :: rest, x, o =>
    let lo := b.bank * bankBytes + b.offset
    if lo ≤ x && x < lo + b.size then some (o + (x - lo)) else scratchPlace rest x (o + (b.size + 255) / 256 * 256)

/-- Where the image holds a CSR of an activation: offset and bytes (R390, R391); the other CSRs are the device's own. -/
def csrPlace (n : Nat) : Option (Nat × Nat) :=
  if n = 0x000 then some (8960, 8)
  else if n = 0x002 then some (8968, 8)
  else if n = 0x013 then some (8976, 4)
  else if n = 0x017 then some (24, 8)
  else if 0x020 ≤ n && n ≤ 0x02B then some (8816 + 24 * ((n - 0x020) / 2) + 8 * (n % 2), 8)
  else if n = 0x030 then some (8800, 14)
  else none

/-- Where the image at `p` holds the item of a selector (R390-R392). -/
def imagePlace (s : State) (a : Act) (p sel : Nat) : Option (Nat × Nat) :=
  let n := sel % 2 ^ 20
  match sel / 2 ^ 56 with
  | 0 => some (256 + 8 * n, 8)
  | 1 => some (512 + 8 * n, 8)
  | 2 => some (8704 + n, 1)
  | 3 => csrPlace n
  | 4 => some (8800 + n, 1)
  | _ => (scratchPlace (savedBuffers s a) (8 * n) (memReadNat s.dev.mem (p + 80) 4)).map fun o => (o, 8)

/-- The uncorrectable error that the read of an item meets, as TADDR and TINFO of MEMX: in a register, in scratch, or in the bytes
of the image that hold the item (R374, R384, R397; TADDR as log 58 says). -/
def itemError (s : State) (a : Act) (sel : Nat) : Option (Nat × Nat) :=
  let n := sel % 2 ^ 20
  match a.saved.bind (·.image) with
  | some p => match imagePlace s a p sel with
    | some x => if badIn s.dev (p + x.1) x.2 then some (0, memLevel (p + x.1)) else none
    | none => none
  | none => match sel / 2 ^ 56 with
    | 0 => if n != 0 && a.badRegs.contains (.s (Fin.ofNat 32 n), 0) then some (0, 5) else none
    | 1 => if a.badRegs.contains (.v (Fin.ofNat 32 (n / 32)), n % 32) then some (0, 5) else none
    | 5 => match a.saved with
      | some v => if v.bad.any fun x => x / 8 = n then some (8 * n, 1) else none
      | none => if badIn s.dev (scratchAddr a (8 * n)) 8 then some (8 * n, memLevel (scratchAddr a (8 * n))) else none
    | _ => none

/-- SNAPR (R397): interlocked; an item with an uncorrectable error never comes (R384). -/
def execSnapr (k : KSel) (d a b : SReg) (s : State) : Host.Outcome State Fault Refusal :=
  issue (.snapr k d a b) s fun t s =>
    match sysTarget s (readS s.act0 a) with
    | none => engTrap s 13
    | some x =>
      match readItem s (fromImage s x) (readS s.act0 b).toNat with
      | none => engTrap s 14
      | some v => match itemError s (fromImage s x) (readS s.act0 b).toNat with
        | none => awaitResult s (.s d) (BitVec.ofNat 2048 v) t .ready
        | some e => awaitFailed s (.s d) 0 t (deferredRec codeMEMX e.1 e.2 s.act0.stamp (nextSeq s))

/-- Replace lane `p` of 64 bits. -/
def setLane64 (v : Vec) (p x : Nat) : Vec := ofLanes 64 fun i => if i = p then x else lane 64 v i

/-- Write a tag of class 2. -/
def writeTagItem (s : State) (a : Act) (n : Nat) (t : Tag) : State :=
  if n < 32 then putAct s (setDestTag a (.s (Fin.ofNat 32 n)) t)
  else if n < 64 then putAct s (setDestTag a (.v (Fin.ofNat 32 (n - 32))) t)
  else if n < 80 then
    match tileItem s a (n - 64) with
    | none => s
    | some x => match a.saved with
      | some v => putAct s { a with saved := some { v with
          tiles := v.tiles.map fun p => if p.1.val = n - 64 then (p.1, { x with tag := t }) else p } }
      | none => { s with dev := putTile s.dev (actCore a) (Fin.ofNat 16 (n - 64)) { x with tag := t } }
  else putAct s { a with eTag := a.eTag.set (Fin.ofNat 8 (n - 80)).val t }

/-- Write the item a selector names; `none` outside R397. -/
def writeItem (s : State) (a : Act) (sel : Nat) (x : Word) : Option State :=
  let n := sel % 2 ^ 20
  if sel / 2 ^ 20 % 2 ^ 36 != 0 then none
  else match sel / 2 ^ 56 with
    | 0 => if n < 32 then
        (if n = 0 then some s else some (putAct s { a with
          s := a.s.set (Fin.ofNat 32 n).val x, badRegs := a.badRegs.filter (· != (.s (Fin.ofNat 32 n), 0)) })) else none
    | 1 => if n < 1024 then
        let r := Fin.ofNat 32 (n / 32)
        some (putAct s { a with
          v := a.v.set r.val (setLane64 a.v[r.val] (n % 32) x.toNat), badRegs := a.badRegs.filter (· != (.v r, n % 32)) })
      else none
    | 2 => if n < 88 && (x.toNat < 14 || x.toNat = 30 || x.toNat = 31) then
        some (writeTagItem s a n (BitVec.ofNat 5 x.toNat)) else none
    | 3 =>
      if n = 0 then some (putAct s { a with fpc := fpcWrite a.fpc x })
      else if n = 2 then some (putAct s { a with vpart := BitVec.ofNat 64 (x.toNat % 8) })
      else none
    | 5 =>
      if 8 * n < scratchExtent s a then
        match a.saved with
        | some v => some (putAct s { a with saved := some { v with
            bad := v.bad.filter fun x => x / 8 != n, scratch := memWriteBytes v.scratch (8 * n) (bytesOfNat 8 x.toNat) } })
        | none =>
          let o := scratchAddr a (8 * n)
          some { s with dev := { s.dev with
            mem := memWriteBytes s.dev.mem o (bytesOfNat 8 x.toNat), bad := s.dev.bad.filter fun y => y / 8 != o / 8 } }
      else none
    | _ => none

/-- SNAPW (R397). -/
def execSnapw (k : KSel) (d a b : SReg) (s : State) : Host.Outcome State Fault Refusal :=
  issue (.snapw k d a b) s fun _ s =>
    match sysTarget s (readS s.act0 a) with
    | none => engTrap s 13
    | some x =>
      let y := fromImage s x
      match writeItem (if x.saved.isSome then putAct s y else s) y (readS s.act0 b).toNat (readS s.act0 d) with
      | none => engTrap s 14
      | some s1 => match findAct s1 x.key with
        | some y => toImage s1 y
        | none => s1

/-! ### CTXSV and CTXLD (R398, R399) -/

/-- Whether an activation stands parked or frozen in a slot (R398). -/
def savable (a : Act) : Bool := a.place.isSome && (a.status = .parked || a.status = .frozen)

/-- CTXSV writes an image at a device address and frees the slot (R398). -/
def writeContext (s : State) (a : Act) (p : Nat) : State :=
  let b := savedAct s a
  let v := { savedOf s a with image := some p }
  leaveSlot { s with dev := { s.dev with mem := memWriteBytes s.dev.mem p (imageBytes s b v) } } (besideImage b v)

/-- MEMX of a context that CTXSV cannot read: a register or a kept scratch byte holds an uncorrectable error (R384, log 58). -/
def contextError (s : State) (a : Act) : Option Trapped :=
  if !a.badRegs.isEmpty then some { code := codeMEMX, addr := 0, info := 5 }
  else (savedOf s a).bad.head?.map fun o => { code := codeMEMX, addr := o, info := 1 }

/-- CTXSV (R398): the pointer's checks, then the handle, then the waits of R387; a context with an uncorrectable error is not saved
(R384). -/
def execCtxsv (k : KSel) (d a b : SReg) (s : State) : Host.Outcome State Fault Refusal :=
  issue (.ctxsv k d a b) s fun t s =>
    let x := (sysTarget s (readS s.act0 a)).filter savable
    let size := match x with | some y => (imageBytes s (savedAct s y) (savedOf s y)).length | none => 0
    match locate s s.act0 (readS s.act0 b).toNat (max ctxFixed size) 256 .store true 0 with
    | .error e => accessTrap s e
    | .ok l =>
      match x with
      | none => engTrap s 13
      | some y =>
        if !settled s y then stall s
        else if let some e := contextError s y then accessTrap s e
        else awaitResult (writeContext s y l.addr) (.s d) (BitVec.ofNat 2048 size) t .ready

/-- The saved activation an image belongs to: the one CTXSV saved at this address, else the first saved one of the
header's stamp. -/
def imageOwner (s : State) (p : Nat) (bs : List Byte) : Option Act :=
  let l := (acts s).filter fun a => a.place.isNone && a.saved.isSome
    && a.stamp.inst = natAt bs 8 6 && a.stamp.task = natAt bs 14 1 && a.stamp.index = natAt bs 15 3
  match l.find? fun a => match a.saved with | some v => v.image = some p | none => false with
  | some a => some a
  | none => l.head?

/-- CTXLD (R389, R399). -/
def execCtxld (k : KSel) (d a b : SReg) (s : State) : Host.Outcome State Fault Refusal :=
  issue (.ctxld k d a b) s fun t s =>
    let p := (readS s.act0 a).toNat
    let core := (readS s.act0 b).toNat
    match locateRead s s.act0 p 256 256 .load with
    | .error e => accessTrap s e
    | .ok l =>
      let header := memReadBytes s.dev0.mem l.addr 256
      match imageOwner s l.addr header with
      | none => engTrap s 16
      | some x =>
        match x.saved with
        | none => engTrap s 16
        | some v =>
          let size := (imageBytes s x v).length
          if natAt header 0 4 != ctxMagic || natAt header 4 4 != size || 32 ≤ core then engTrap s 16
          else
            match locateRead s s.act0 p size 256 .load with
            | .error e => accessTrap s e
            | .ok _ =>
              let y := fromImage s { x with
                saved := some { v with image := some l.addr }, deferred := if v.image.isSome then x.deferred else [] }
              match lowestSlot s core with
              | some slot =>
                if !mayJoin s x then stall s
                else if startable s x && fits s x core then
                  awaitResult (placeOn (putAct s y) y core) (.s d) (BitVec.ofNat 2048 slot) t .ready
                else engTrap s 16
              | none => engTrap s 16

/-! ### TTINV and HALT (R400, R401) -/

/-- The units' copies of a table's entries are dropped: later accesses use the entries as they stand (R237, R400). -/
def dropViews (r : Run) (handle : Option Nat) : Run :=
  { r with tables := r.tables.map fun t =>
    match handle with
    | some h => if t.handle = h then { t with view := t.entries } else t
    | none => { t with view := t.entries } }

/-- TTINV (R400). -/
def execTtinv (k : KSel) (a b : SReg) (s : State) : Host.Outcome State Fault Refusal :=
  issue (.ttinv k a b) s fun _ s =>
    let x := (readS s.act0 a).toNat
    let y := (readS s.act0 b).toNat
    if x / 1024 != 0 || y / 8192 != 0 then engTrap s 14
    else match findRun s.dev x with
      | some r => { s with dev := putRun s.dev (dropViews r (if y / 4096 = 1 then none else some (y % 4096))) }
      | none => s

/-- HALT (R401). -/
def execHalt (k : KSel) (s : State) : Host.Outcome State Fault Refusal :=
  issue (.halt k) s fun _ s => setCtl s .halt

/-- STEWARD_WAKE: an event has reached the core; its halted slots resume at their next bundle (R401). -/
def execStewardWake (core : Fin 4) (s : State) : Host.Outcome State Fault Refusal :=
  let f := fun (a : Act) => if onCore (32 + core.val) a && a.status = .halted then { a with status := .ready } else a
  .next { s with act := f s.act, dev := { s.dev with others := s.dev.others.map f } }

end Sys2Proof.Machine
end

