-- ==== Sys2Proof/Machine/Landing.lean ====
section
/-! DEFINITION. What happens to a slot between its bundles: results landing, timed-load data, handler activations,
held effects, retirement (R24-R26, R177, R189, R190, R211, R238, R264, R286, R379-R383). -/
namespace Sys2Proof.Machine

/-! ### Landing (R24-R26, R238, R286) -/

/-- Whether results land in an activation now: its cycles are advance cycles again only when it is in a slot and
neither frozen nor parked (R375, R387). -/
def landsNow (a : Act) : Bool :=
  a.place.isSome && (match a.status with | .ready => true | .waiting _ => true | .halted => true | _ => false)

/-- The first due result of an activation lands, when it is of this kind. -/
def landFirst (timed : Bool) (who : ActKey) (s : State) : State :=
  match findAct s who with
  | none => s
  | some a =>
    if !landsNow a then s
    else match landable a with
      | some f => if f.timed = timed then landResult s a f else s
      | none => s

/-- FIXED_LATENCY_RESULT_LANDS (R24, R25). -/
def execFixedLatencyResultLands (who : ActKey) (s : State) : Host.Outcome State Fault Refusal :=
  .next (landFirst false who s)

/-- TIMED_LOAD_LANDS: at its class distance, once its data are there (R238). -/
def execTimedLoadLands (who : ActKey) (s : State) : Host.Outcome State Fault Refusal :=
  .next (landFirst true who s)

/-- Whether an interlocked result may land (R26, R320). -/
def mayLand (cycle : Nat) : Awaiting → Bool
  | .ready => true
  | .after t => decide (t ≤ cycle)
  | .live _ _ _ _ fenced => !fenced
  | _ => false

/-- INTERLOCKED_RESULT_LANDS: the `n`-th register that awaits one (R26). -/
def execInterlockedResultLands (who : ActKey) (n : Nat) (s : State) : Host.Outcome State Fault Refusal :=
  .next (match findAct s who with
    | none => s
    | some a =>
      match a.pend[n]? with
      | some p => if a.place.isSome && mayLand s.dev.cycle p.wait then putAct s (landPend a p) else s
      | none => s)

/-- The data of the first timed load on its way arrive. -/
def arriveFirst : List InFlight → List InFlight
  | [] => []
  | f :: rest => if f.arrived then f :: arriveFirst rest else { f with arrived := true } :: rest

/-- TIMED_LOAD_DATA_ARRIVAL: in a frozen or parked slot the load enters the snapshot buffer (R286, R376). -/
def execTimedLoadDataArrival (who : ActKey) (s : State) : Host.Outcome State Fault Refusal :=
  .next (match findAct s who with
    | none => s
    | some a =>
      let b := { a with inflight := arriveFirst a.inflight }
      if a.status = .frozen || a.status = .parked then
        putAct s { b with snapshot := b.snapshot ++ toSnapshot b, inflight := b.inflight.filter fun f => !f.arrived }
      else putAct s b)

/-! ### Handler activations (R379-R383) -/

/-- A handler activation of a run for a trapped activation, or for a trap without one (R380, R381). -/
def makeHandler (s : State) (r : Run) (t : Task) (st : Stamp) (rec : TrapRec) (seq : BitVec 32) (handle : Word) :
    State :=
  let h : Act := { Act.fresh (.handler r.num st r.handlerSerial) st t.num handle 0 with
    trap := rec, seq := seq, serves := handle, waitSince := s.dev.cycle }
  let d := putRun s.dev { r with handlerSerial := r.handlerSerial + 1 }
  { s with dev := { d with others := d.others ++ [h] } }

/-- Whether an activation of a run waits for its handler; a steward slot has none. -/
def awaitsHandler (a : Act) : Bool :=
  !isService a && match a.frozen with | some f => f.stage = .delivered | none => false

/-- The one that has waited longest. -/
def oldest : List Act → Option Act
  | [] => none
  | a :: rest => match oldest rest with
    | some b => if b.waitSince < a.waitSince then some b else some a
    | none => some a

/-- Whether the run of an activation can give it a handle (R383). -/
def canHandle (s : State) (a : Act) : Bool := (giveHandle s a).isSome

/-- Start the handler of a frozen activation. -/
def startHandler (s : State) (a : Act) : State :=
  match giveHandle s a, a.frozen with
  | some (s1, a1), some f =>
    match actRun s1 a1 with
    | none => s
    | some r => match imgHandler r.image with
      | none => s
      | some t => makeHandler (putAct s1 { a1 with frozen := some { f with stage := .served } }) r t a1.stamp f.record
          a1.seq a1.handle
  | _, _ => s

/-- Whether a trap of the activation tears its run down: no task handles traps, or a handler met it (R379, R382). -/
def endsRun (s : State) (a : Act) : Bool :=
  isHandler a || ((actRun s a).bind fun r => imgHandler r.image).isNone

/-- The tear-down in place of a handler: the record is kept, after the one that had been delivered to a handler that met it
(R379, R382). -/
def endRun (s : State) (a : Act) : State :=
  match runOfKey a.key, a.frozen with
  | some n, some f => tearDownKeeping s n ((if isHandler a then [a.trap] else []) ++ [f.record])
  | _, _ => s

/-- HANDLER_ACTIVATION_START: for the trap that has waited longest and can have a handle, or for a trap without a
frozen activation (R380, R381, R383); where there is no handler to start, the run is torn down (R379, R382, log 57). It waits until
no live store is read by some parties only, which a handler on another core might miss (R269). -/
def execHandlerActivationStart (s : State) : Host.Outcome State Fault Refusal :=
  .next (if !homeOnly s.dev then s else match oldest ((acts s).filter fun a => awaitsHandler a && (endsRun s a || canHandle s a)) with
    | some a => if endsRun s a then endRun s a else startHandler s a
    | none =>
      match s.dev.orphanTraps with
      | [] => s
      | o :: rest =>
        let s1 := { s with dev := { s.dev with orphanTraps := rest } }
        match findRun s.dev o.run with
        | none => s1
        | some r => match imgHandler r.image, o.met with
          | some t, none => makeHandler s1 r t o.stamp o.record o.seq 0
          | _, _ => tearDownKeeping s1 o.run (o.met.toList ++ [o.record]))

/-! ### Held effects (R189, R190, R211) -/

/-- A deferred trap of an activation, before its END or after it. -/
def deferOrOrphan (s : State) (k : ActKey) (r : TrapRec) : State :=
  match findAct s k with
  | none => s
  | some a =>
    if a.status = .ended || a.status = .retired then orphanTrap s a r else putAct s (addDeferred a r)

/-- Release one held effect; `none` while it must wait (R189, R211, R415). -/
def releaseOne (s : State) (a : Act) (h : Held) : Option State :=
  match h.op with
  | .live addr op =>
    some (sendLive s { liveReq a .slot h.seq addr op with released := true, core := h.core })
  | .launch p t st => some (sendLaunch s a h.core h.seq p t st)
  | .resolve c m o =>
    match actRun s a with
    | none => some s
    | some r =>
      if (cellValue r c m).isSome then
        some (deferOrOrphan s a.key (deferredRec codeDUPRES c (m % 2 ^ 48 + h.seq % 65536 * 2 ^ 48) a.stamp h.seq))
      else some (applyResolve s r.num c m o)
  | .coll b w rec =>
    if keyInFlight s.dev b || 64 ≤ dieQueue s.dev (queueDie h.core) then none
    else
      let s1 := enterColl s a h.core a.seq.toNat b w rec
      match findAct s1 a.key with
      | some x => some (putAct s1 { x with seq := x.seq + 1 })
      | none => some s1

/-- Release held effects in the order of their SEQ until one must wait. -/
def releaseHeld (k : ActKey) : List Held → State → State
  | [], s => s
  | h :: rest, s =>
    match findAct s k with
    | none => s
    | some a =>
      match releaseOne s a h with
      | none => s
      | some s1 =>
        match findAct s1 k with
        | none => s1
        | some b => releaseHeld k rest (putAct s1 { b with held := b.held.drop 1 })

/-- A trap is delivered, and the image of an activation that CTXSV saved follows (R391, R393). -/
def deliverSaved (s : State) (k : ActKey) : State :=
  let t := deliverTrap s k
  match findAct t k with
  | some a => toImage t a
  | none => t

/-- Deliver a trap that waited for the release of held effects; of one the activation held while speculative TCAUSE.HELD is set
(R189, R190, R373). -/
def deliverHeld (s : State) (b : Act) : State :=
  let a := fromImage s b
  match a.frozen with
  | some f =>
    if f.stage = .held then
      let r := { f.record with cause := f.record.cause ||| BitVec.ofNat 64 (2 ^ 20) }
      deliverSaved (putAct s { a with frozen := some { f with record := r } }) a.key
    else if f.stage = .behind then deliverSaved (putAct s a) a.key
    else s
  | none => s

/-- Whether a command of the activation that failed while it was speculative has still to write what its failure leaves (R190, R330). -/
def failureLeft (d : Dev) (k : ActKey) : Bool := d.copies.toList.flatten.any fun c => c.who = k && c.raised

/-- An ended activation's pending traps are raised (R372, R381). -/
def raiseEnded (s : State) (a : Act) : State :=
  if a.status = .ended && !a.deferred.isEmpty then
    a.deferred.foldl (fun s r => orphanTrap s a r) (putAct s { a with deferred := [] })
  else s

/-- HELD_EFFECT_RELEASE: the activation has become non-speculative; its effects go out in SEQ order, then its held
trap, behind what its failed commands still write, or the traps that its END found pending (R189, R190, R330, R372). -/
def execHeldEffectRelease (run : Nat) (who : Stamp) (s : State) : Host.Outcome State Fault Refusal :=
  .next (
    let k := ActKey.ordinary run who
    match findAct s k with
    | none => s
    | some a =>
      if speculative s a then s
      else
        let s1 := releaseHeld k a.held s
        match findAct s1 k with
        | some b =>
          if !b.held.isEmpty || failureLeft s1.dev k then s1
          else if b.status = .ended then raiseEnded s1 b else deliverHeld s1 b
        | none => s1)

/-! ### Retirement (R177, R199, R200, R258) -/

/-- Whether every entry, engine command, push and live write of an activation has arrived and been performed, no repair notice of its run
is on its way, and no trap of it still waits for a handler (R258, R273, R381). -/
def quiet (d : Dev) (run : Nat) (st : Stamp) (k : ActKey) : Bool :=
  !engineBusy d k && (ownLive d k).isEmpty && !(d.orphanTraps.any fun x => x.run = run && x.stamp = st)
    && !(d.pushes.any fun w => w.who = k) && !(d.cellq.any fun q => q.run = run && q.entry.stamp = st) && !(d.notices.any fun x => x.run = run)

/-- The STAGED tensors of an image that a task writes (R243, R442). -/
def stagedWritten (img : Image) (task : Nat) : List Nat :=
  (img.tensors.filter fun t => t.order = .staged && (t.writers.getD []).contains task).map (·.handle)

/-- Whether an address stands in a mapped tile of one of these tensors of a run. -/
def inTensors (r : Run) (hs : List Nat) (x : Nat) : Bool :=
  r.tables.any fun t => hs.contains t.handle && t.entries.any fun e =>
    e.2.v && decide (frameAddr e.2.loft e.2.frame 0 ≤ x) && decide (x < frameAddr e.2.loft e.2.frame frameBytes)

/-- A core's STAGED sectors once an activation retires: those it wrote are written back, and those of the tensors it writes go
where `inv` holds (R243). -/
def settleStaged (r : Run) (st : Stamp) (inv : Bool) (c : Core) : Core :=
  let home := c.l1Staged.map fun p => if p.2.1 = r.num && p.2.2 = some st then (p.1, p.2.1, none) else p
  { c with l1Staged := home.filter fun p => !(inv && inTensors r (stagedWritten r.image st.task) p.1) }

/-- Every dirty line of a retiring activation is written back, and its tensors' lines leave the L1s of the run's die mask (R243). -/
def retireLines (d : Dev) (run : Nat) (st : Stamp) : Dev :=
  match findRun d run with
  | none => d
  | some r => { d with cores := Vector.ofFn fun i => settleStaged r st (r.dieMask.getLsbD (dieOf i.val)) d.cores[i] }

/-- ACTIVATION_RETIRE: its weight returns, the ridge may move, and what follows from that (R176, R177, R199). -/
def execActivationRetire (run : Nat) (who : Stamp) (s : State) : Host.Outcome State Fault Refusal :=
  .next (
    let k := ActKey.ordinary run who
    match findAct s k with
    | none => s
    | some a =>
      if a.status != .ended || speculative s a || !a.held.isEmpty || !a.deferred.isEmpty || !quiet s.dev run who k then s
      else
        let s1 := forgetUses (putAct s { a with status := .retired }) run who
        afterChange { s1 with dev := returnWeight (retireLines s1.dev run who) run who.inst a.weight.toNat } run)

end Sys2Proof.Machine
end

