-- ==== Sys2Proof/Machine/Settling.lean ====
section
/-! DEFINITION. The cells' and the homes' own steps: arrival of entries and capacity, repair notices, folding, the
delivery of ORDERED ATOMR values, live writes performed (R247-R264, R269, R270). -/
namespace Sys2Proof.Machine

/-! ### Capacity (R263, R264) -/

/-- The ridge of a run, or the next instant's first phase where no activation is left. -/
def ridgeOr (s : State) (run : Nat) : Nat × Nat :=
  (ridge s run).getD (match findRun s.dev run with | some r => (r.nextInstant, 0) | none => (0, 0))

/-- The ordinary activation whose stamp an entry or record carries. -/
def ownerOf (s : State) (run : Nat) (st : Stamp) : Option Act := findAct s (.ordinary run st)

/-- Whether the activation of a stamp exists and is speculative. -/
def specStamp (s : State) (run : Nat) (st : Stamp) : Bool :=
  match ownerOf s run st with | some a => speculative s a | none => false

/-- The highest stamp of a list; of equal stamps the first (log 27). -/
def highest : List (Nat × Stamp) → Option (Nat × Stamp)
  | [] => none
  | x :: rest => match highest rest with
    | some y => if stampLt x.2 y.2 then some y else some x
    | none => some x

/-- The speculative stamps with entries or records in cells. -/
def specIn (s : State) (cs : List Cell) : List (Nat × Stamp) :=
  (cs.flatMap fun c => (c.hist.map fun h => (c.run, h.stamp)) ++ c.readers.map fun r => (c.run, r.stamp)).filter
    fun x => specStamp s x.1 x.2

/-- A squash for want of room, counted by the vault (R263); the ridge may then move (R176, R258). -/
def capacitySquash (s : State) (vault : Nat) (x : Nat × Stamp) (atRidgeOnly : Bool) : State :=
  match ownerOf s x.1 x.2 with
  | none => s
  | some a =>
    let s1 := squash s (if atRidgeOnly then { a with onlyAtRidge := true } else a)
    let s2 := if h : vault < 32 then
        let v := s1.dev.vaults[vault]
        { s1 with dev := { s1.dev with vaults := s1.dev.vaults.set vault { v with squashes := v.squashes + 1 } } }
      else s1
    afterChange s2 x.1

/-- The speculative stamps with requests on their way to cells of a vault reserved for them. -/
def specReserved (s : State) (vault : Nat) : List (Nat × Stamp) :=
  ((s.dev.cellq.filter fun q => q.reserved && vaultOf q.word = vault).map fun q => (q.run, q.entry.stamp)).filter
    fun x => specStamp s x.1 x.2

/-- Squash until the vault has a cell for a word (R263). -/
def makeRoom (word : Nat) : Nat → State → State
  | 0, s => s
  | fuel + 1, s =>
    if cellAvailable s.dev word then s
    else match highest (specIn s (s.dev.cells.filter fun c => vaultOf c.word = vaultOf word)
        ++ specReserved s (vaultOf word)) with
      | some x => makeRoom word fuel (capacitySquash s (vaultOf word) x false)
      | none => s

/-- HOVF of a refused request (R264): the register of a refused ATOMR stays under interlock. -/
def refuseRequest (s : State) (q : CellReq) (cause : Nat) : State :=
  let r := deferredRec codeHOVF q.ptr (q.entry.seq % 2 ^ 32 + cause * 2 ^ 32) q.entry.stamp q.entry.seq
  let s1 := match findAct s q.who with
    | some a => putAct s { a with pend := a.pend.map fun p =>
        if p.wait = Awaiting.atomr q.word q.entry.seq then { p with wait := .never r } else p }
    | none => s
  deferOrOrphan s1 q.who r

/-- A word's cell folds its phases below the ridge. A base word that meets an uncorrectable error as it is folded tears the
run down, and its address is reported (R259, R384). -/
def foldChecked (s : State) (word run : Nat) : State :=
  let rd := ridgeOr s run
  let due := match findCell s.dev word with
    | some c => (c.hist.any fun h => phaseLt (phaseOf h.stamp) rd) || c.readers.any fun r => phaseLt (phaseOf r.stamp) rd
    | none => false
  if due && badIn s.dev word 8 then
    let s1 := tearDown s run
    { s1 with dev := { s1.dev with reported := s1.dev.reported ++ [word] } }
  else { s with dev := foldCell s.dev word rd }

/-- An entry reaches a word that has a cell or finds one free: it is accepted, or a 17th entry squashes the highest
speculative stamp, or is refused (R263). -/
def admitEntry (q : CellReq) : Nat → State → State
  | 0, s => s
  | fuel + 1, s =>
    if !s.dev.cellq.contains q then s
    else
      let s0 := foldChecked s q.word q.run
      let c := cellOrNew s0.dev q.word q.run
      let take := { s0 with dev := { s0.dev with cellq := s0.dev.cellq.erase q } }
      if !s0.dev.cellq.contains q then s0
      else if cellEntries (c.hist ++ [q.entry]) ≤ 16 then { take with dev := acceptEntry take.dev q }
      else
        match highest (((c.hist.map fun h => (c.run, h.stamp)) ++ [(q.run, q.entry.stamp)]).filter
            fun x => specStamp s0 x.1 x.2) with
        | some x => admitEntry q fuel (capacitySquash s0 (vaultOf q.word) x true)
        | none => refuseRequest take q 0

/-- Whether an earlier request of the same activation to the same word is still on its way. -/
def behindOwn (l : List CellReq) (n : Nat) (q : CellReq) : Bool :=
  (l.take n).any fun x => x.who = q.who && x.word = q.word

/-- CELL_REQUEST_ARRIVAL: request `n` reaches its cell (R247-R250, R260, R263). -/
def execCellRequestArrival (n : Nat) (s : State) : Host.Outcome State Fault Refusal :=
  .next (match s.dev.cellq[n]? with
    | none => s
    | some q =>
      if behindOwn s.dev.cellq n q then s
      else
        let s1 := makeRoom q.word 65536 s
        let s2 :=
          if !s1.dev.cellq.contains q then s1
          else if cellAvailable s1.dev q.word then admitEntry q 65536 s1
          else refuseRequest { s1 with dev := { s1.dev with cellq := s1.dev.cellq.erase q } } q 1
        dropEndedHandler s2 q.who)

/-! ### Repair notices (R260-R262) -/

/-- A notice is acted on: its reader is squashed unless a case of R261 drops it. -/
def actOnNotice (s : State) (x : Notice) : State :=
  match ownerOf s x.run x.stamp with
  | none => s
  | some a =>
    if a.incarnation != x.inc || a.status = .retired || (a.status = .pending && a.saved.isNone) then s
    else squash s a

/-- REPAIR_NOTICE: notice `n` reaches its reader (R261); the ridge may then move (R176, R258). -/
def execRepairNotice (n : Nat) (s : State) : Host.Outcome State Fault Refusal :=
  .next (match s.dev.notices[n]? with
    | none => s
    | some x =>
      afterChange (actOnNotice { s with dev := { s.dev with notices := s.dev.notices.eraseIdx n } } x) x.run)

/-! ### Folding (R259, R384) -/

/-- CELL_FOLD: the cell `n` folds its phases below the ridge and drops the records the ridge has passed. A base word that
meets an uncorrectable error tears its run down (R384). -/
def execCellFold (n : Nat) (s : State) : Host.Outcome State Fault Refusal :=
  .next (match s.dev.cells[n]? with
    | none => s
    | some c => foldChecked s c.word c.run)

/-! ### ORDERED ATOMR values (R256) -/

/-- Whether a stamp is that of a sibling of lower index (R174, R256). -/
def siblingBelow (st x : Stamp) : Bool := phaseOf x = phaseOf st && decide (x.index < st.index)

/-- Whether a sibling's part in the phase is settled: it has committed END and no squash or pruning can take its entries back
(R1, R256, R262). -/
def partDone (s : State) (b : Act) : Bool := b.status = .retired || (b.status = .ended && !speculative s b)

/-- Whether every sibling of lower index has committed END or been pruned and its entries have arrived, for good: none of them can be
squashed or pruned, and none can still be spawned (R1, R256, R308, log 51); what carries a sibling's stamp counts with it, a handler
that runs or is still to start (R380, R381). -/
def siblingsBelowDone (s : State) (run : Nat) (st : Stamp) : Bool :=
  (st.index = 0 || !maySpawnInto s run (phaseOf st))
    && ((runActs s run).all fun b => !siblingBelow st b.stamp || partDone s b)
    && s.dev.cellq.all (fun q => q.run != run || !siblingBelow st q.entry.stamp)
    && s.dev.orphanTraps.all fun x => x.run != run || !siblingBelow st x.stamp

/-- Whether the ATOMR's own entry, and the activation's earlier ones to the word, have arrived. -/
def ownArrived (s : State) (run word seq : Nat) (st : Stamp) : Bool :=
  s.dev.cellq.all fun q => q.run != run || q.entry.stamp != st || q.word != word || decide (seq < q.entry.seq)

/-- The value of an ORDERED ATOMR whose entry has arrived, cut to its width (R256). -/
def deliveredValue (d : Dev) (word seq : Nat) (st : Stamp) : Option Nat :=
  (histOf d word).findSome? fun h =>
    if h.stamp = st && h.seq = seq then
      match h.op with
      | .atomr _ w o => some (atomrValue d word st seq / 2 ^ (8 * o) % 2 ^ w)
      | _ => none
    else none

/-- How far a device byte lies in a frame, where it does. -/
def inFrame (loft : Bool) (frame addr : Nat) : Option Nat :=
  let lo := frameAddr loft frame 0
  if lo ≤ addr && addr < lo + frameBytes then some (addr - lo) else none

/-- The generic pointer of a device byte in a tensor of a run (R230): its handle and byte offset. -/
def tensorPtr (r : Run) (addr : Nat) : Option Nat :=
  r.tables.findSome? fun t => t.view.findSome? fun e =>
    (inFrame e.2.loft e.2.frame addr).map fun o => 2 ^ 63 + t.handle * 2 ^ 44 + e.1 * frameBytes + o

/-- The generic pointer of a device byte in the loft window of a run (R230, R231): its vault and byte offset. -/
def windowPtr (r : Run) (addr : Nat) : Option Nat :=
  r.window.findSome? fun w => (w.2.zip (List.range w.2.length)).findSome? fun f =>
    (inFrame true f.1 addr).map fun o => 2 ^ 62 + w.1 * 2 ^ 26 + f.2 * frameBytes + o

/-- The address through which an activation of a run reads a device byte: TADDR of a MEMX met at its home (R374). -/
def bytePtr (r : Option Run) (addr : Nat) : Nat :=
  match r with
  | some r => ((tensorPtr r addr) <|> (windowPtr r addr)).getD 0
  | none => 0

/-- Where in its word an ORDERED ATOMR reads (R256). -/
def atomrOffset (d : Dev) (word seq : Nat) (st : Stamp) : Nat :=
  ((histOf d word).findSome? fun h =>
    if h.stamp = st && h.seq = seq then (match h.op with | .atomr _ _ o => some o | _ => none) else none).getD 0

/-- Replace a result an activation awaits. -/
def setPend (a : Act) (p x : Pend) : Act := { a with pend := a.pend.map fun y => if y = p then x else y }

/-- Deliver the first value an activation in a slot awaits that can be delivered (R256, R388). -/
def deliverAtomr (s : State) (run : Nat) (a : Act) : State :=
  let ready := fun (p : Pend) => match p.wait with
    | .atomr w q => ownArrived s run w q a.stamp && (deliveredValue s.dev w q a.stamp).isSome
    | _ => false
  match (if a.place.isSome then a.pend.find? ready else none) with
  | none => s
  | some p => match p.wait with
    | .atomr w q =>
      if badIn s.dev w 8 then
        let r := deferredRec codeMEMX (bytePtr (findRun s.dev run) (w + atomrOffset s.dev w q a.stamp)) (memLevel w) a.stamp q
        putAct s (addDeferred (setPend a p { p with wait := .never r }) r)
      else putAct s (setPend a p { p with wait := .ready, val := BitVec.ofNat 2048 ((deliveredValue s.dev w q a.stamp).getD 0) })
    | _ => s

/-- ATOMR_VALUE_DELIVERY: to the activation of a stamp, or the handler that carries it (R256). -/
def execAtomrValueDelivery (run : Nat) (who : Stamp) (s : State) : Host.Outcome State Fault Refusal :=
  .next (
    if !siblingsBelowDone s run who then s
    else ((runActs s run).filter fun a => a.stamp = who).foldl (fun s a => deliverAtomr s run a) s)

/-! ### Live writes (R269, R270, R294) -/

/-- The live accesses of an access's activation before it in SEQ order, those of one operation as they stand (R270). -/
def earlierOwn (l : List LiveReq) (n : Nat) (q : LiveReq) : List LiveReq :=
  ((l.zip (List.range l.length)).filter fun x =>
    kin x.1.who q.who && (decide (x.1.seq < q.seq) || (x.1.seq = q.seq && decide (x.2 < n)))).map (·.1)

/-- Whether an engine command of the activation with a lower SEQ is not complete. -/
def commandsBefore (d : Dev) (q : LiveReq) : Bool :=
  (d.copies.toList.flatten.any fun c => kin c.who q.who && decide (c.seq < q.seq))
    || d.colls.any fun c => kin c.who q.who && decide (c.seq < q.seq)

/-- Whether every live access of the activation before this one is performed for every party of a scope (R270). -/
def performedFor (d : Dev) (n : Nat) (q : LiveReq) (c : Scope) : Bool :=
  !commandsBefore d q && (earlierOwn d.liveq n q).all (performedTo c q.core)

/-- Whether an engine's use of its arrival word is that of an engine's live write (R271). -/
def useOf (u : EngineUse) (q : LiveReq) : Bool := stampOfKey q.who = some (u.run, u.stamp) && u.seq = q.seq

/-- Whether an update by `n` bytes advances the generation of the arrival word at `a` (R329). -/
def advances (m : List Host.Cell) (a n : Nat) : Bool :=
  targetOf m a != 0 && decide (targetOf m a ≤ (memReadNat m a 8 % 2 ^ 48 + n) % 2 ^ 48)

/-- Whether a live write is one of the bytes counted at the word of the update `q` by `n` bytes, once that is made (R272, R329). -/
def countedWith (d : Dev) (q : LiveReq) (n : Nat) (x : LiveReq) : Bool :=
  match x.counts with
  | some (w, upto) => w = q.addr && decide (0 < upto) && d.engineUses.any fun u =>
      useOf u x && decide (upto ≤ u.counted + if useOf u q then n else 0)
  | none => false

/-- What an update of an arrival word follows: the STATUS and the record of its command sent before it, and where it advances the
generation every byte counted so far (R272, R329, R330). -/
def countInOrder (d : Dev) (own : List LiveReq) (q : LiveReq) (n : Nat) : Bool :=
  own.all (fun x => x.seq != q.seq || x.counts != some (q.addr, 0))
    && (!advances d.mem q.addr n || d.liveq.all fun x => !countedWith d q n x)

/-- What must come before access `n` is visible to any other party: an earlier FENCE or LDACQ has passed; held effects go out in
SEQ order (R294); a release follows every earlier access, an LDACQ a store that not every party reads yet (R270), and an engine's
update of an arrival word what it releases (R272). -/
def inOrder (d : Dev) (n : Nat) (q : LiveReq) : Bool :=
  let own := earlierOwn d.liveq n q
  (own.all fun x => match x.op with | .fence _ => false | .acquire _ => false | _ => true)
    && (!q.released || own.all fun x => !x.released || x.seq = q.seq)
    && match q.op with
      | .release _ c => q.unit = .agent || performedFor d n q c
      | .fence c => performedFor d n q c
      | .acquire c => !acquireWaits d q.core q.who q.seq q.addr c
      | .count k => countInOrder d own q k
      | _ => true

/-- Whether two live accesses touch a common word. -/
def sameWord (x y : LiveReq) : Bool := touchesWords x y.addr (liveSpan y.op)

/-- Whether access `n` may be performed at its home: in its order, after the earlier accesses of its activation to the word, and
after those of others to it that some party may have read (R269, R270). -/
def mayPerform (d : Dev) (n : Nat) (q : LiveReq) : Bool :=
  inOrder d n q && (earlierOwn d.liveq n q).all (fun x => !sameWord x q)
    && (d.liveq.take n).all fun x => x.reach = 0 || !sameWord x q

/-- Whether store `n` may become visible to the parties of its core, or then of its die. -/
def mayWiden (d : Dev) (n : Nat) (q : LiveReq) : Bool :=
  isOwnStore q && decide (q.core < 32) && decide (q.reach < 2) && inOrder d n q
    && (earlierOwn d.liveq n q).all fun x => !sameWord x q || decide (q.reach < x.reach)

/-- A live access becomes visible one level further out (R269, R270). -/
def widenLive (s : State) (n : Nat) : State :=
  match s.dev.liveq[n]? with
  | some q =>
    if mayWiden s.dev n q && !homeReaders s then { s with dev := { s.dev with liveq := s.dev.liveq.set n { q with reach := q.reach + 1 } } } else s
  | none => s

/-- A core's live sectors take the home's bytes of the words of `[a, a + n)` after a write its parties may have read (R243,
R269). -/
def refreshLines (d : Dev) (core a n : Nat) : Dev :=
  if core < 32 then
    let c := getCore d core
    putCore d core { c with l1 := c.l1.map fun l =>
      (l.1, (l.2.zip (List.range l.2.length)).map fun x =>
        if a / 8 * 8 ≤ l.1 + x.2 && l.1 + x.2 < (a + n + 7) / 8 * 8 then memRead d.mem (l.1 + x.2) else x.1) }
  else d

/-- The cores of the activations of a stamp: one and its handlers (R380). -/
def kinCores (s : State) (k : ActKey) : List Nat := ((acts s).filter fun a => kin a.key k).map actCore

/-- Whether a core's parties may have read an access before it was performed: the core it came from, those its activation and the
handlers of its stamp are on, and those it has reached (R267, R380). -/
def knows (s : State) (q : LiveReq) (core : Nat) : Bool :=
  q.unit = .slot && (core = q.core || reaches core q || (kinCores s q.who).contains core)

/-- Whether a core lies on the die that an access of an activation, its engine's among them (R271), came from, or on that of an
activation of its stamp. -/
def sameDie (s : State) (q : LiveReq) (core : Nat) : Bool :=
  q.unit != .agent && (dieOf core = dieOf q.core || (kinCores s q.who).any fun x => dieOf x = dieOf core)

/-- The sectors of `[a, a + n)` that a core holds miss a store of its die (R243, R270). -/
def missLines (d : Dev) (core a n : Nat) : Dev :=
  if core < 32 then
    let c := getCore d core
    putCore d core { c with l1Die := c.l1Die ++ ((c.l1.map (·.1)).filter fun x => (sectorsOf a n).contains x && !c.l1Die.contains x) }
  else d

/-- The cores that know an access follow the home; what the others of its die hold misses it (R243, R269, R270). -/
def refreshAll (s : State) (q : LiveReq) (d : Dev) : Dev :=
  (List.range 32).foldl (fun d c =>
    if knows s q c then refreshLines d c q.addr (liveSpan q.op)
    else if sameDie s q c then missLines d c q.addr (liveSpan q.op) else d) d

/-- The uses of arrival words after an update by `n` bytes on `m`: the command's bytes are counted, and a generation covers what it
counts (R271, R329). -/
def noteCount (m : List Host.Cell) (q : LiveReq) (n : Nat) (u : EngineUse) : EngineUse :=
  let t := targetOf m q.addr
  let u1 := if useOf u q then { u with counted := u.counted + n } else u
  if advances m q.addr n && u.arrival = q.addr then
    { u1 with covered := u1.counted - if useOf u q then (memReadNat m q.addr 8 % 2 ^ 48 + n) % 2 ^ 48 % t else 0 }
  else u1

/-- The arrival-word uses after an access is performed. -/
def noteUses (d : Dev) (q : LiveReq) : Dev :=
  match q.op with
  | .count n => { d with engineUses := d.engineUses.map (noteCount d.mem q n) }
  | _ => d

/-- A live ATOMR is performed: the value it found lands, or MEMX becomes pending (R268, R291, R384). -/
def deliverLive (s : State) (q : LiveReq) (w : Nat) : State :=
  match findAct s q.who with
  | none => s
  | some a => match a.pend.find? fun p => p.wait = .liveAtomr q.seq with
    | none => s
    | some p =>
      if badIn s.dev q.addr (w / 8) then
        let r := deferredRec codeMEMX (bytePtr (actRun s a) q.addr) (memLevel q.addr) a.stamp q.seq
        putAct s (addDeferred (setPend a p { p with wait := .never r }) r)
      else putAct s (setPend a p { p with wait := .ready, val := BitVec.ofNat 2048 (memReadNat s.dev.mem q.addr (w / 8)) })

/-- The bytes the live read of an activation's operation with this SEQ finds now. -/
def liveNow (s : State) (a : Act) (seq addr n : Nat) : List Byte :=
  memReadBytes (ownBefore s.dev a.key seq (coreView (coreLines s.dev (liveCore a)) s.dev (liveCore a))) addr n

/-- An element of `size` bytes of a result, put in place. -/
def putElemBytes (v : Vec) (size i : Nat) (bs : List Byte) : Vec :=
  BitVec.ofNat 2048 (putBits v.toNat (8 * size) (size * i) (natOfBytes bs))

/-- The result with element `i` read now (R268); a scalar is extended as LD extends it. -/
def rereadElem (s : State) (a : Act) (p : Pend) (seq size : Nat) (signed : Bool) (i : Nat) (x : Option (Nat × Nat)) : Pend :=
  match x, p.dest with
  | none, _ => p
  | some y, .s _ => { p with val := vecOfWord (loadedWord signed (liveNow s a seq y.1 size)) }
  | some y, _ => { p with val := putElemBytes p.val size i (liveNow s a seq y.1 size) }

/-- A read that a FENCE or LDACQ of its own bundle held back is made once that has passed; behind a further FENCE it is not made
again (R268, R270). -/
def readFenced (s : State) (k : ActKey) (p : Pend) : State :=
  match findAct s k, p.wait with
  | some a, .live seq size xs signed true =>
    if fencedAt s.dev k seq then s
    else match xs.findSome? fun x => x.filter fun y => badIn s.dev y.1 size with
    | some y =>
      let r := deferredRec codeMEMX y.2 (memLevel y.1) a.stamp seq
      putAct s (addDeferred (setPend a p { p with wait := .never r }) r)
    | none =>
      let q := (xs.zip (List.range xs.length)).foldl (fun q x => rereadElem s a q seq size signed x.2 x.1) p
      putAct s (setPend a p { q with wait := if fenced s.dev k then .ready else .live seq size xs signed false })
  | _, _ => s

/-- The reads that FENCEs and LDACQs of an activation have held back, as far as none is left before them. -/
def readAllFenced (s : State) (k : ActKey) : State :=
  match findAct s k with
  | some a => a.pend.foldl (fun s p => readFenced s k p) s
  | none => s

/-- The core of an activation's key; 36 for none. -/
def keyCore (s : State) (k : ActKey) : Nat := match findAct s k with | some a => actCore a | none => 36

/-- An LDACQ behind a FENCE is performed: its value lands, or MEMX becomes pending (R42, R270, R384). -/
def deliverAcquire (s : State) (q : LiveReq) : State :=
  match findAct s q.who with
  | none => s
  | some a =>
    a.pend.foldl (fun s p => match p.wait with
      | .acquire seq ptr kept =>
        if seq != q.seq then s
        else if badIn s.dev q.addr 8 then
          let r := deferredRec codeMEMX ptr (memLevel q.addr) a.stamp q.seq
          putAct s (addDeferred (setPend a p { p with wait := .never r }) r)
        else putAct s (setPend a p
          { p with wait := .ready, val := if kept then p.val else vecOfBytes (liveNow s a q.seq q.addr 8) })
      | _ => s) s

/-- A live ATOM whose word holds an uncorrectable error: MEMX becomes pending in the activation that issued it (R384, log 58). -/
def atomError (s : State) (q : LiveReq) : State :=
  if badIn s.dev q.addr (liveSpan q.op) then
    deferOrOrphan s q.who (deferredRec codeMEMX (bytePtr ((runOfKey q.who).bind (findRun s.dev)) q.addr)
      (memLevel q.addr) (match stampOfKey q.who with | some x => x.2 | none => { inst := 0, task := 0, index := 0 }) q.seq)
  else s

/-- What follows the performance of an access: an ATOMR's value, an ATOM's error, and after a FENCE or LDACQ the reads it held back
(R243, R270). -/
def afterLive (s : State) (q : LiveReq) : State :=
  match q.op with
  | .atom _ _ _ => atomError s q
  | .atomr _ w _ => deliverLive s q w
  | .fence c => readAllFenced { s with dev := acquireLines s.dev (keyCore s q.who) c } q.who
  | .acquire c => readAllFenced (deliverAcquire { s with dev := acquireLines s.dev (keyCore s q.who) c } q) q.who
  | _ => s

/-- LIVE_STORE_PERFORMED: live access `n` is performed at its home (R243, R269, R270). -/
def execLiveStorePerformed (n : Nat) (s : State) : Host.Outcome State Fault Refusal :=
  .next (match s.dev.liveq[n]? with
    | none => s
    | some q =>
      if !mayPerform s.dev n q then s
      else
        let s1 := afterLive { s with dev := { s.dev with liveq := s.dev.liveq.eraseIdx n } } q
        let d := { noteUses s1.dev q with mem := performOp s1.dev.mem q.addr q.op }
        dropEndedHandler { s1 with dev := refreshAll s1 q d } q.who)

/-- Element `i` of a result awaited is read only now, while no later operation of the activation has issued (R268, R269). -/
def rereadLive (s : State) (k : ActKey) (n i : Nat) : State :=
  match findAct s k with
  | none => s
  | some a => match a.pend[n]? with
    | none => s
    | some p => match p.wait with
      | .live seq size xs signed false =>
        match xs.getD i none with
        | some y =>
          if a.seq.toNat = seq + 1 && !badIn s.dev y.1 size then
            putAct s (setPend a p (rereadElem s a p seq size signed i (some y)))
          else s
        | none => s
      | _ => s

end Sys2Proof.Machine
end

