-- ==== Sys2Proof/Machine/Instants.lean ====
section
/-! DEFINITION. Admission and completion of instants (R9, R10, R176, R181, R197, R200). -/
namespace Sys2Proof.Machine

/-- The ordinary tasks of a run and their widths; a run's image declares each task once (`firstDeclared`). -/
def runTasks (r : Run) : List (Task × Nat) :=
  (r.image.tasks.filter fun t => !t.handler).map fun t => (t, runWidth r t)

/-- W: the initial activations of an instant (R197). -/
def initialCount (r : Run) : Nat := (runTasks r).foldl (fun n t => n + t.2) 0

/-- The share of each initial activation and the root's remainder (R197). -/
def rootShare (w : Nat) : Nat × Nat := if w = 0 then (0, rootWeight) else (rootWeight / w, rootWeight % w)

/-- An initial activation (R170, R174, R183). -/
def initialAct (r : Run) (cycle m task index share : Nat) : Act :=
  let st : Stamp := { inst := m, task := task, index := index }
  { Act.fresh (.ordinary r.num st) st task r.arg (BitVec.ofNat 64 share) with factors := [.path task], waitSince := cycle }

/-- The initial activations of an instant whose program clock is not known to be absent (R181, R188). -/
def initialActs (r : Run) (cycle m share : Nat) : List Act :=
  ((runTasks r).filter fun t => !taskAbsent r t.1.num m).flatMap fun t =>
    (List.range t.2).map fun i => initialAct r cycle m t.1.num i share

/-- How many initial activations of an instant are absent from the start: their weight counts as returned. -/
def absentCount (r : Run) (m : Nat) : Nat :=
  ((runTasks r).filter fun t => taskAbsent r t.1.num m).foldl (fun n t => n + t.2) 0

/-- Whether a run may admit its next instant (R181, R220). -/
def mayAdmit (s : State) (r : Run) : Bool :=
  decide (r.nextInstant ≤ ridgeInstant s r + r.reach) && decide (r.nextInstant < r.allowance)
    && decide (r.nextInstant ≤ lastInstant)

/-- INSTANT_ADMISSION (R181, R197). -/
def execInstantAdmission (run : Nat) (s : State) : Host.Outcome State Fault Refusal :=
  .next (match findRun s.dev run with
    | none => s
    | some r =>
      if !booted s.dev || !mayAdmit s r then s
      else
        let m := r.nextInstant
        let (share, rest) := rootShare (initialCount r)
        let r1 := { r with
          nextInstant := m + 1, instants := r.instants ++ [{ num := m, returned := rest + absentCount r m * share }] }
        let d := putRun s.dev r1
        afterChange { s with dev := { d with others := d.others ++ initialActs r s.dev.cycle m share } } run)

/-- The unresolved cells of an instant resolve false (R176). -/
def resolveRest (run m : Nat) : List Cond → State → State
  | [], s => s
  | c :: rest, s =>
    match findRun s.dev run with
    | none => s
    | some r => resolveRest run m rest (if (cellValue r c.num m).isNone then resolveCell s run c.num m false else s)

/-- The stamps of a completed instant are gone (R206), and its SPAWNC uses; its cells keep their values (R176, R210). -/
def forgetInstant (s : State) (run m : Nat) : State :=
  let s1 := ((runActs s run).filter fun a => a.stamp.inst = m && a.status = .retired).foldl
    (fun s a => removeAct s a.key) s
  match findRun s1.dev run with
  | none => s1
  | some r => { s1 with dev := putRun s1.dev { r with
      instants := r.instants.filter fun i => i.num != m
      uses := r.uses.filter fun u => u.inst != m } }

/-- INSTANT_COMPLETE: the whole weight has returned (R200); the last instant ends the run as a STOP would (R10). -/
def execInstantComplete (run inst : Nat) (s : State) : Host.Outcome State Fault Refusal :=
  .next (match findRun s.dev run with
    | none => s
    | some r =>
      match r.instants.find? fun i => i.num = inst with
      | none => s
      | some i =>
        if i.returned != rootWeight then s
        else
          let s1 := forgetInstant (resolveRest run inst r.image.conds s) run inst
          if inst = lastInstant then tearDown s1 run else afterChange s1 run)

end Sys2Proof.Machine
end

