-- ==== Sys2Proof/Machine/Packets.lean ====
section
/-! DEFINITION. Parsing of packets, remote pushes and queue residency (R214-R222, R412, R441). -/
namespace Sys2Proof.Machine

/-! ### The head packet (R216, R220) -/

/-- A queue by index. -/
def findQueue (d : Dev) (q : Nat) : Option Queue := d.queues.find? fun x => x.index = q && x.live

/-- The packet a queue parses next: the queue is resident and the device runs. -/
def headPacket (s : State) (q : Nat) : Option (Queue × Packet) :=
  if !booted s.dev then none
  else match findQueue s.dev q with
    | some x => if x.resident then x.ring.head?.map fun p => (x, p) else none
    | none => none

/-- Add to a signal counter, wrapping (R218). -/
def addCounter (d : Dev) (c : Nat) (x : Word) : Dev :=
  if h : c < 256 then { d with counters := d.counters.set c (d.counters[c] + x) h } else d

/-- A packet leaves the ring, completed: COMP is signalled when asked for (R218, R220). -/
def completePacket (s : State) (q : Nat) (p : Packet) : State :=
  match findQueue s.dev q with
  | none => s
  | some x =>
    let d := putQueue s.dev { x with ring := x.ring.drop 1, parsed := x.parsed + 1, judged := false }
    { s with dev := if pktByte p 1 % 2 = 1 then addCounter d (pktByte p 2) 1 else d }

/-- PACKET_REJECTION: the packet is skipped, counted and its code kept; ERR is signalled when asked for (R220, R441). -/
def rejectPacket (s : State) (q : Nat) (p : Packet) (code : Nat) : State :=
  match findQueue s.dev q with
  | none => s
  | some x =>
    let d := putQueue s.dev
      { x with ring := x.ring.drop 1, parsed := x.parsed + 1, rejects := x.rejects + 1, rejectCode := code, judged := false }
    { s with dev := if pktByte p 1 / 2 % 2 = 1 then addCounter d (pktByte p 3) 1 else d }

/-! ### Rejection (R220, R441) -/

/-- The key slot of a number. -/
def keyOf (d : Dev) (k : Nat) : Option KeySlot := (d.keys.find? fun x => x.1 = k).map (·.2)

/-- The valid width overrides of a START: task and width (R219). -/
def overridesOf (p : Packet) : List (Nat × Nat) :=
  [0, 1, 2, 3].filterMap fun j =>
    let e := natAt p (24 + 8 * j) 8
    if e / 256 % 2 = 1 then some (e % 256, e / 2 ^ 32 % 2 ^ 25) else none

/-- Whether some task is pinned to a core of a die outside the mask (R441). -/
def pinnedOutside (img : Image) (mask : BitVec 4) : Bool :=
  img.tasks.any fun t => match pinOf img t.num with | some c => !mask.getLsbD (dieOf c) | none => false

/-- Rejections of a START, in the order of R441. -/
def startReject (d : Dev) (p : Packet) : Option Nat :=
  match (d.images.find? fun x => x.1 = natAt p 4 4).map (·.2) with
  | none => some 3
  | some img =>
    let mask := BitVec.ofNat 4 (pktByte p 10)
    if 64 < pktByte p 8 then some 4
    else if (keyOf d (pktByte p 9)).isNone then some 5
    else if pktByte p 10 = 0 then some 6
    else if (overridesOf p).any fun o => (imgTask img o.1).isNone || decide (2 ^ 24 < o.2) then some 7
    else if pinnedOutside (firstDeclared img) mask then some 8
    else none

/-- The rejection of a packet at the head of a queue, if any (R220, R441). -/
def rejectCode (d : Dev) (q : Queue) (p : Packet) : Option Nat :=
  if !pktTypeOk p then some 1
  else if !pktReservedOk p then some 2
  else match pktByte p 0 with
    | 1 => startReject d p
    | 2 => if q.run.isNone then some 9 else none
    | 3 => let k := pktByte p 1 / 16; if k = 0 || 12 < k then some 10 else none
    | 5 => if q.run.isNone then some 9 else if 1 < pktByte p 4 then some 11 else none
    | _ => none

/-- Parse the head of a queue if it is of type `ty` (or of no valid type): judged once, as it reaches the head, it is rejected or
given to its action; one that waits is not judged again (R220). -/
def parseHead (ty q : Nat) (s : State) (act : Queue → Packet → State → State) : State :=
  match headPacket s q with
  | none => s
  | some (x, p) =>
    if pktTypeOk p && pktByte p 0 != ty then s
    else match (if x.judged then none else rejectCode s.dev x p) with
      | some c => rejectPacket s q p c
      | none =>
        let x1 := { x with judged := true }
        act x1 p { s with dev := putQueue s.dev x1 }

/-! ### START (R220, R231, R236, R238, R412) -/

/-- The lowest free run number (the model's choice, log 27). -/
def freeRun (d : Dev) : Nat → Nat → Option Nat
  | 0, _ => none
  | fuel + 1, n => if (holders d).any fun r => r.num = n then freeRun d fuel (n + 1) else some n

/-- The likelihood registers as the conditions give them (R186). -/
def initialPredictors (img : Image) : Vector (BitVec 8 × Bool) 64 :=
  Vector.ofFn fun i =>
    match (imgClock img i.val).bind fun c => c.cell.bind (imgCond img) with
    | some c => (c.p, c.pin)
    | none => (0, false)

/-- The run that a START creates: of an image's declarations of one number the first counts (log 72). -/
def newRun (num queue : Nat) (loaded : Image) (p : Packet) : Run :=
  let img := firstDeclared loaded
  { num := num, imageHandle := natAt p 4 4, image := img, queue := queue, dieMask := BitVec.ofNat 4 (pktByte p 10)
    keySlot := pktByte p 9, reach := if pktByte p 8 = 0 then 8 else pktByte p 8
    allowance := natAt p 12 4, arg := BitVec.ofNat 64 (natAt p 16 8), widths := overridesOf p
    predictors := initialPredictors img, sites := Vector.replicate 64 (128, false)
    values := [], deadAfter := [], likeWas := none, uses := [], instants := [], nextInstant := 0
    tables := img.tensors.map fun t => { handle := t.handle, ttab := Config.tableAddress num t.handle, entries := [], view := [] }
    hbmFrames := [], loftFrames := [], window := [], handles := [], handlerSerial := 0 }

/-- The vaults of a run's dies (R231). -/
def maskVaults (mask : BitVec 4) : List Nat := (List.range 32).filter fun v => mask.getLsbD (dieOf v)

/-- Create a run: its loft window, its tensors' tiles and their initial contents (R46, R167, R220, R231). -/
def createRun (d : Dev) (r : Run) : Dev :=
  let d1 := { d with runs := d.runs ++ [r] }
  let d2 := if r.image.loft = 0 then d1 else (maskVaults r.dieMask).foldl (allotWindow r.num r.image.loft) d1
  r.image.tensors.foldl (fun d t => mapTiles r.num t d t.ntiles) d2

/-- START: it waits while the queue has a run or 1,024 runs exist (R220). -/
def doStart (x : Queue) (p : Packet) (s : State) : State :=
  match x.run, freeRun s.dev 1024 0, (s.dev.images.find? fun y => y.1 = natAt p 4 4).map (·.2) with
  | none, some n, some img =>
    let d := createRun s.dev (newRun n x.index img p)
    completePacket { s with dev := putQueue d { x with run := some n } } x.index p
  | _, _, _ => s

/-- START (R220). -/
def execStart (queue : Nat) (s : State) : Host.Outcome State Fault Refusal := .next (parseHead 1 queue s doStart)

/-! ### GRANT, FENCE, SIGNAL, STOP, MARKER (R220) -/

/-- Change a queue's current run. -/
def onRun (s : State) (x : Queue) (f : Run → Run) : State :=
  match x.run.bind (findRun s.dev) with
  | some r => { s with dev := putRun s.dev (f r) }
  | none => s

/-- GRANT: the allowance rises, at most to 2^48. -/
def execGrant (queue : Nat) (s : State) : Host.Outcome State Fault Refusal :=
  .next (parseHead 2 queue s fun x p s =>
    completePacket (onRun s x fun r => { r with allowance := min (r.allowance + natAt p 8 6) (2 ^ 48) }) queue p)

/-- Whether entry `j` of a FENCE has reached its target. -/
def fenceMet (d : Dev) (p : Packet) (j : Nat) : Bool :=
  let c := pktByte p (4 + 5 * j)
  let v : Word := if h : c < 256 then d.counters[c] else 0
  let x : Nat := v.toNat % 2 ^ 32
  let target := natAt p (5 + 5 * j) 4
  decide ((x + 2 ^ 32 - target) % 2 ^ 32 < (2 ^ 31 : Nat))

/-- FENCE: it waits until its counters have reached their targets. -/
def execFencePacket (queue : Nat) (s : State) : Host.Outcome State Fault Refusal :=
  .next (parseHead 3 queue s fun _ p s =>
    if (List.range (pktByte p 1 / 16)).all (fenceMet s.dev p) then completePacket s queue p else s)

/-- SIGNAL: a counter rises. -/
def execSignal (queue : Nat) (s : State) : Host.Outcome State Fault Refusal :=
  .next (parseHead 4 queue s fun _ p s =>
    completePacket { s with dev := addCounter s.dev (pktByte p 4) (BitVec.ofNat 64 (natAt p 8 8)) } queue p)

/-- Whether some granted instant of a run has not completed. -/
def grantedLeft (r : Run) : Bool := !r.instants.isEmpty || decide (r.nextInstant < r.allowance)

/-- STOP: mode 1 waits for the granted instants; then the run is torn down (R220, R222). -/
def execStop (queue : Nat) (s : State) : Host.Outcome State Fault Refusal :=
  .next (parseHead 5 queue s fun x p s =>
    match x.run.bind (findRun s.dev) with
    | none => completePacket { s with dev := putQueue s.dev { x with run := none } } queue p
    | some r =>
      if pktByte p 4 = 1 && grantedLeft r then s
      else completePacket (tearDown s r.num) queue p)

/-- MARKER: the queue keeps the tag. -/
def execMarker (queue : Nat) (s : State) : Host.Outcome State Fault Refusal :=
  .next (parseHead 6 queue s fun x p s =>
    completePacket { s with dev := putQueue s.dev { x with marker := BitVec.ofNat 64 (natAt p 8 8) } } queue p)

/-! ### Remote pushes and residency (R216, R221, R413, R414) -/

/-- REMOTE_PUSH: a packet of another device of the domain is decided here, and the outcome goes back under the sender's
tag (R221). -/
def execRemotePush (device tag : Nat) (handle : BitVec 32) (p : Packet) (s : State) : Host.Outcome State Fault Refusal :=
  .next (
    if !booted s.dev || device = s.dev.number || !reachable s.dev device then s
    else
      let r := localPush s.dev handle.toNat p
      { s with dev := { r.2 with replies := r.2.replies ++
        [{ req := BitVec.ofNat 64 tag, status := 0, data := .code r.1 }] } })

/-- REMOTE_PUSH_OUTCOME: the outcome of push `n` returns and the local agent writes its status word; a device that has
become unreachable gives UNREACHABLE (R221). -/
def execRemotePushOutcome (n code : Nat) (s : State) : Host.Outcome State Fault Refusal :=
  .next (match s.dev.remote[n]? with
    | none => s
    | some w =>
      let d := { s.dev with remote := s.dev.remote.eraseIdx n }
      let st := statusReq w.who w.seq w.core w.status code .system
      if !reachable s.dev w.device then
        (if code = pushUNREACHABLE then sendLive { s with dev := d } st else s)
      else if code = pushACCEPTED || code = pushSTALE || code = pushFULL || code = pushINVALID then
        sendLive { s with dev := d } st
      else s)

/-- QUEUE_RESIDENCY_CHANGE: at most 256 queues are resident (R216). -/
def execQueueResidencyChange (queue : Nat) (resident : Bool) (s : State) : Host.Outcome State Fault Refusal :=
  .next (match findQueue s.dev queue with
    | none => s
    | some x =>
      if !booted s.dev || (resident && decide (256 ≤ (s.dev.queues.filter fun q => q.live && q.resident).length)) then s
      else { s with dev := putQueue s.dev { x with resident := resident } })

end Sys2Proof.Machine
end

