-- ==== Sys2Proof/Machine/Loader.lean ====
section
/-! DEFINITION. What IMAGE_LOAD refuses (R227, R233, R238, R240, R379, R386). -/
namespace Sys2Proof.Machine

/-! ### Static control flow (R386) -/

/-- A loop body in the code: its first and last bundle and the bundle after it (R27). -/
structure Body where
  first : Nat
  last : Nat
  after : Nat
  deriving DecidableEq, Repr

/-- The instructions of the bundle at an address; none where a slot is undefined. -/
def instrsAt (code : List Byte) (pc : Nat) : List Instr :=
  match fetchBundle code pc with
  | .ok ws =>
    let l := ws.map decodeWord
    if l.all (·.isSome) then l.filterMap fun s => s.map (·.instr) else []
  | _ => []

/-- The body a LOOP or LOOPI at an address names. -/
def bodyAt (code : List Byte) (pc : Nat) (i : Instr) : Option Body :=
  let next := pc + 4 * bundleSlots code pc
  let mk := fun (n : Nat) => some { first := next, last := skipBundles code (n - 1) next, after := skipBundles code n next }
  match i with
  | .loop _ _ n => mk n.val
  | .loopi _ _ n => mk n.val
  | _ => none

/-- A place in the static control flow: a bundle, the returns that the calls on the way have left, and the bodies whose levels are
active there, innermost first. -/
structure FlowPlace where
  pc : Nat
  rets : List Nat
  levels : List Body
  deriving DecidableEq, Repr

/-- An edge: whether the boundary is a pre-emption point, and where it leads. -/
abbrev Edge := Bool × FlowPlace

/-- Whether a control slot acts on every path: its clock is k0. -/
def always (k : KSel) : Bool := k = .clk 0

/-- The edges where a pass of the innermost level ends, a point each: another pass, or past its body, whose end at `last` may end a
pass of the level beneath (R29, R385). -/
def passEdges (rets : List Nat) (last : Nat) : List Body → List Edge
  | [] => []
  | b :: rest =>
    (true, { pc := b.first, rets := rets, levels := b :: rest }) :: match rest with
      | [] => [(true, { pc := b.after, rets := rets, levels := [] })]
      | m :: _ => if m.last = last then passEdges rets last rest else [(true, { pc := b.after, rets := rets, levels := rest })]

/-- Whether a place is the last bundle of the innermost active body. -/
def atBodyEnd (p : FlowPlace) : Bool := match p.levels with | b :: _ => b.last = p.pc | [] => false

/-- The edges out of a bundle with no transfer: at the last bundle of the innermost active body a pass ends; where no level has been
pushed, the body is ordinary code (R29, R109). -/
def fallEdges (p : FlowPlace) (next : Nat) : List Edge :=
  if atBodyEnd p then passEdges p.rets p.pc p.levels else [(false, { p with pc := next })]

/-- The address a displacement leads to. -/
def staticTarget (pc : Nat) (disp : BitVec 21) : Nat := ((pc : Int) + 4 * sextInt 21 disp.toNat).toNat

/-- The edges of a LOOP or LOOPI whose clock is present: into the body with its level pushed where the count may be other than 0,
past it where the count may be 0; a push that is refused traps (R27, R29, R110). -/
def loopEdges (code : List Byte) (p : FlowPlace) (next : Nat) (i : Instr) (zero other : Bool) : List Edge :=
  match bodyAt code p.pc i with
  | none => []
  | some b =>
    if 6 ≤ p.levels.length || atBodyEnd p then []
    else (if zero then [(false, { p with pc := b.after })] else [])
      ++ if other then [(false, { p with pc := next, levels := b :: p.levels })] else []

/-- The edges a control slot adds or substitutes (R104-R117, R386). -/
def controlEdges (code : List Byte) (p : FlowPlace) (next : Nat) (i : Instr) : List Edge :=
  let fall := fallEdges p next
  let orFall := fun (k : KSel) (l : List Edge) => if always k then l else l ++ fall
  match i with
  | .br k d => orFall k [(false, { p with pc := staticTarget p.pc d })]
  | .jal k d => orFall k [(false, { p with pc := staticTarget p.pc d, rets := next :: p.rets })]
  | .jalr k _ a _ => orFall k (if a = 30 then
      (match p.rets with | r :: rest => [(false, { p with pc := r, rets := rest })] | [] => []) else [])
  | .loop k _ _ => orFall k (loopEdges code p next i true true)
  | .loopi k c _ => orFall k (loopEdges code p next i (c = 0) (c != 0))
  | .lbrk k => orFall k (match p.levels with | b :: rest => [(false, { p with pc := b.after, levels := rest })] | [] => [])
  | .lnext k => orFall k (match p.levels with | b :: _ => passEdges p.rets b.last p.levels | [] => [])
  | .yield k => if always k then fall.map fun e => (true, e.2) else fall
  | .endAct k => orFall k []
  | .brk k => orFall k []
  | .trap k _ => orFall k []
  | _ => fall

/-- Whether an instruction is one of the control slots above. -/
def isControl : Instr → Bool
  | .br .. | .jal .. | .jalr .. | .loop .. | .loopi .. | .lbrk .. | .lnext .. | .yield .. | .endAct .. | .brk ..
  | .trap .. => true
  | _ => false

/-- The edges out of a bundle. -/
def edgesOf (code : List Byte) (p : FlowPlace) : List Edge :=
  match instrsAt code p.pc with
  | [] => []
  | l =>
    let next := p.pc + 4 * l.length
    match l.find? isControl with
    | some i => controlEdges code p next i
    | none => fallEdges p next

/-- The places reached from a frontier. -/
def reachFrom (code : List Byte) : Nat → List FlowPlace → List FlowPlace → List FlowPlace
  | 0, seen, _ => seen
  | fuel + 1, seen, front =>
    let new := ((front.flatMap (edgesOf code)).map (·.2)).eraseDups.filter fun p => !seen.contains p
    if new.isEmpty then seen else reachFrom code fuel (seen ++ new) new

/-- Whether some path of `n` more bundles leaves the places `l` without a point. -/
def longPath (code : List Byte) : Nat → List FlowPlace → Bool
  | 0, l => !l.isEmpty
  | n + 1, l =>
    if l.isEmpty then false
    else longPath code n (((l.flatMap (edgesOf code)).filter fun e => !e.1).map (·.2)).eraseDups

/-- Whether the static control flow passes R386: no path of more than 16,384 bundles, and so no cycle, without a
point. -/
def flowOk (img : Image) : Bool :=
  let starts := (img.tasks.map fun t => ({ pc := taskEntry img t.num, rets := [], levels := [] } : FlowPlace)).eraseDups
  !longPath img.code 16384 (reachFrom img.code 65536 starts starts)

/-! ### Scratch plans, tensors, tasks -/

/-- The banks a task's plan names (R227). -/
def planBanks (img : Image) (t : Nat) : List Nat :=
  ((img.scratch.filter fun b => b.task = none || b.task = some t).map (·.bank)).eraseDups

/-- Whether the banks are exactly 0 to k - 1 with k at most 16, and every task= names a task (R227); a buffer must lie in its bank
(log 64). -/
def scratchOk (img : Image) : Bool :=
  (img.scratch.all fun b => (match b.task with | some t => (imgTask img t).isSome | none => true)
      && decide (b.offset + b.size ≤ bankBytes))
    && img.tasks.all fun t =>
      let l := planBanks img t.num
      decide (l.length ≤ 16) && l.all fun b => decide (b < l.length)

/-- The bytes a tensor's elements take in its layout, padding of the last blocks included: the SIZE its loader gives it (R233,
R234). -/
def tensorBytes (t : Tensor) : Nat :=
  let elems :=
    if t.blocked then
      (t.exts.drop 2).foldl (· * ·) 1 * ((t.exts.getD 1 1 + 255) / 256) * ((t.exts.getD 0 1 + 383) / 384) * 98304
    else t.exts.foldl (· * ·) 1
  elems * (fmt4Width t.fmt / 8)

/-- Whether a descriptor keeps the limits of R233 and R240 and its tiles can be mapped (R236; log 72). -/
def tensorOk (t : Tensor) : Bool :=
  decide (1 ≤ t.exts.length) && decide (t.exts.length ≤ 6) && (t.exts.all fun e => decide (1 ≤ e) && decide (e < 2 ^ 32))
    && (!t.blocked || decide (2 ≤ t.exts.length)) && decide (t.lc ≤ 4)
    && (match t.vault with | some v => decide (v < 32) | none => true)
    && t.size = tensorBytes t && decide (t.size < 2 ^ 44) && decide (t.ntiles < 2 ^ 32) && decide ((t.size + 65535) / 65536 ≤ t.ntiles)
    && decide (t.handle < 4096)
    && (t.vault.isSome || (t.order != .ordered && (t.lc = 0 || t.lc = 4)))
    && (t.order != .staged || t.readers.isSome || t.writers.isSome)

/-- The vaults to which a task is pinned (R238). -/
def pinsOf (img : Image) (t : Nat) : List Nat :=
  ((img.tensors.filter fun x => x.lc = 1 && (inSet x.readers t || inSet x.writers t)).filterMap (·.vault)).eraseDups

/-- Whether at most one task is the handler, with width 0 and on pk0 (R379), and the tasks are well declared (R170; log 72). -/
def tasksOk (img : Image) : Bool :=
  decide ((img.tasks.filter (·.handler)).length ≤ 1)
    && (img.tasks.all fun t => (!t.handler || (t.width = 0 && t.clock = 0)) && decide (t.width ≤ 2 ^ 24)
      && decide (t.num < 256) && decide (t.feeds ≤ 8) && decide ((pinsOf img t.num).length ≤ 1))

/-- The checks of IMAGE_LOAD (R427); the numbers and parents of clocks, the numbers of cells and the presence of a task are not
judged (log 72). -/
def imageOk (img : Image) : Bool :=
  scratchOk img && img.tensors.all tensorOk && tasksOk img && decide (img.loft ≤ 1024) && flowOk img

end Sys2Proof.Machine
end

