-- ==== Sys2Proof/Machine/Requests.lean ====
section
/-! DEFINITION. The host's requests, the boot ROM and reset (R215, R221, R236, R427-R435). -/
namespace Sys2Proof.Machine

/-! ### Replies (R427) -/

def statusOK : Nat := 0
def statusDENIED : Nat := 1
def statusINVALID : Nat := 2
def statusNOTFOUND : Nat := 3
def statusBUSY : Nat := 4
def statusMINIMAL : Nat := 5

/-- Answer a request. -/
def reply (s : State) (req : Word) (status : Nat) (data : ReplyData) : State :=
  { s with dev := { s.dev with replies := s.dev.replies ++ [{ req := req, status := status, data := data }] } }

/-- Whether a request can reach the service: through an Ultra Ethernet port that is up, in minimal mode port 0 only, or, outside
minimal mode and for RESYNC, ATTEST and RESET (`mgmt`), through the management port (R427, R431). -/
def heard (d : Dev) (mgmt : Bool) : Bool :=
  if d.boot = .minimal then d.ethernet[0] else d.ethernet.toList.any id || (mgmt && d.management)

/-- The last three of a list. -/
def lastThree (l : List Nat) : List Nat := l.drop (l.length - 3)

/-- Serve a request that has been received (R427, R431): in minimal mode only those the table admits; the first request a
started service answers makes the start succeed, which leaves reason code 0 (log 10); before the start there is no service. -/
def serveNow (inMinimal : Bool) (req : Word) (s : State) (f : State → State) : State :=
  match s.dev.boot with
  | .off => s
  | .minimal => if inMinimal then f s else reply s req statusMINIMAL .none
  | .starting _ => f { s with dev := { s.dev with boot := .running, failedStarts := 0, reasons := lastThree (s.dev.reasons ++ [0]) } }
  | .running => f s

/-- A request: not received, or BUSY while a RESET is in progress (R429), or served. -/
def serve (mgmt inMinimal : Bool) (req : Word) (s : State) (f : State → State) : State :=
  if !heard s.dev mgmt then s
  else if s.dev.resetting.isSome then reply s req statusBUSY .none
  else serveNow inMinimal req s f

/-! ### Boot (R431) -/

/-- The reason code of firmware that does not verify (R431). -/
def firmwareFault (f : Firmware) : Option Nat :=
  if Config.sha3 f.key != Config.fusedKeyDigest || !Config.mldsaVerify f.key f.signedDigest f.signature then some 1
  else if Config.sha3 f.code != f.signedDigest then some 2
  else if f.version < Config.fusedMinVersion then some 3
  else none

/-- Every steward slot as the boot ROM finds or leaves it. -/
def setStewards (s : State) (status : Status) : State :=
  let f := fun (a : Act) => match a.key with
    | .steward c k => { Act.steward c k with status := status }
    | _ => a
  { s with act := f s.act, dev := { s.dev with others := s.dev.others.map f } }

/-- A failed start: counted, its reason kept; the third in a row leads to minimal mode, in which the stewards run alone (R426,
R431). -/
def failStart (s : State) (code : Nat) : State :=
  let n := s.dev.failedStarts + 1
  let s1 := setStewards s (if 3 ≤ n then .halted else .off)
  { s1 with dev := { s1.dev with
    failedStarts := n, reasons := lastThree (s1.dev.reasons ++ [code]), running := none
    boot := if 3 ≤ n then .minimal else .off } }

/-- The boot ROM: verification, steward self-test, training, and the start of the stewards (R431). -/
def bootRom (s : State) : State :=
  let n := s.dev.starts
  let s1 := { s with dev := { s.dev with starts := n + 1 } }
  match s1.dev.activeBank with
  | none => failStart s1 1
  | some f =>
    match firmwareFault f with
    | some c => failStart s1 c
    | none =>
      if !Config.selfTestPasses n then failStart s1 4
      else if !Config.trainingPasses n then failStart s1 5
      else
        let s2 := setStewards s1 .halted
        { s2 with dev := { s2.dev with running := some f, boot := .starting s2.dev.cycle } }

/-- POWER_ON_BOOT (R431). -/
def execPowerOnBoot (s : State) : Host.Outcome State Fault Refusal :=
  .next (if s.dev.boot = .off then bootRom s else s)

/-- 10 s of the 3 GHz core clock (R2, R431). -/
def startLimit : Nat := 30000000000

/-- SERVICE_START_TIMEOUT (R431). -/
def execServiceStartTimeout (s : State) : Host.Outcome State Fault Refusal :=
  .next (match s.dev.boot with
    | .starting t => if t + startLimit ≤ s.dev.cycle then failStart s 6 else s
    | _ => s)

/-! ### Images and firmware -/

/-- IMAGE_LOAD (R427). -/
def execImageLoad (req : Word) (img : Image) (s : State) : Host.Outcome State Fault Refusal :=
  .next (serve false false req s fun s =>
    if !imageOk img then reply s req statusINVALID .none
    else
      let h := s.dev.nextImage
      reply { s with dev := { s.dev with images := s.dev.images ++ [(h, img)], nextImage := h + 1 } } req statusOK (.handle h))

/-- IMAGE_LOAD with the firmware flag: firmware that verifies goes to the spare bank, which becomes active, and the count
is cleared; it runs at the next cold RESET (R427, R431). -/
def execFirmwareImageLoad (req : Word) (f : Firmware) (s : State) : Host.Outcome State Fault Refusal :=
  .next (serve false true req s fun s =>
    match firmwareFault f with
    | some c => reply s req statusINVALID (.code c)
    | none => reply { s with dev := { s.dev with
        activeBank := some f, spareBank := s.dev.activeBank, failedStarts := 0 } } req statusOK .none)

/-! ### Queues (R215, R221) -/

/-- QUEUE_PUSH: the host receives the push's code (R221). -/
def execQueuePush (req : Word) (handle : BitVec 32) (p : Packet) (s : State) : Host.Outcome State Fault Refusal :=
  .next (serve false false req s fun s =>
    let r := localPush s.dev handle.toNat p
    reply { s with dev := r.2 } req statusOK (.code r.1))

/-- Whether a ring capacity is a power of two from 64 to 65,536. -/
def capacityOk (c : Nat) : Bool := [64, 128, 256, 512, 1024, 2048, 4096, 8192, 16384, 32768, 65536].contains c

/-- The generation an index stands at. -/
def generationOf (d : Dev) (q : Nat) : BitVec 16 :=
  match d.queues.find? fun x => x.index = q with | some x => x.gen | none => 0

/-- Create a queue (R215); before any MARKER its last tag is 0 (log 35). -/
def execQueueCreate (req : Word) (queue priority capacity : Nat) (s : State) : Host.Outcome State Fault Refusal :=
  .next (serve false false req s fun s =>
    if 65536 ≤ queue || 8 ≤ priority || !capacityOk capacity then reply s req statusINVALID .none
    else if (findQueue s.dev queue).isSome then reply s req statusBUSY .none
    else
      let g := generationOf s.dev queue
      let q : Queue := { index := queue, gen := g, live := true, priority := priority, capacity := capacity, ring := []
                         parsed := 0, run := none, marker := 0, rejects := 0, rejectCode := 0, resident := false
                         judged := false }
      let d := { s.dev with queues := (s.dev.queues.filter fun x => x.index != queue) ++ [q] }
      reply { s with dev := d } req statusOK (.handle (g.toNat * 65536 + queue)))

/-- A queue is gone: its ring discarded, its generation raised (R215). -/
def destroyed (q : Queue) : Queue := { q with live := false, gen := q.gen + 1, ring := [], run := none, judged := false }

/-- Destroy a queue, its current run first (R215, R222). -/
def execQueueDestroy (req : Word) (handle : BitVec 32) (s : State) : Host.Outcome State Fault Refusal :=
  .next (serve false false req s fun s =>
    match currentQueue s.dev handle.toNat with
    | none => reply s req statusNOTFOUND .none
    | some q =>
      let s1 := match q.run with | some n => tearDown s n | none => s
      reply { s1 with dev := putQueue s1.dev (destroyed q) } req statusOK .none)

/-! ### MAP (R235, R236) -/

/-- Whether an entry may be mapped for a tensor of a run (R236). -/
def mapOk (r : Run) (t : Tensor) (e : TileEntry) : Bool :=
  e.order = orderCode t.order && (t.order != .ordered || e.loft)
    && decide (e.lc.toNat ≤ 4) && (e.loft || e.lc = 0 || e.lc = 4)
    && (if e.loft then r.loftFrames.contains e.frame else r.hbmFrames.contains e.frame) && e.reserved = 0

/-- MAP: an entry that breaks R236 is refused with PROT; the service maps with W = 1 just where some task of the run may write the
tensor (R442, log 28). A tile that had no frame before gets no initial contents from a MAP (log 52). -/
def execMap (req : Word) (run tensor tile : Nat) (e : TileEntry) (s : State) : Host.Outcome State Fault Refusal :=
  .next (serve false false req s fun s =>
    match (findRun s.dev run).bind fun r => (imgTensor r.image tensor).map fun t => (r, t) with
    | none => reply s req statusNOTFOUND .none
    | some (r, t) =>
      if t.ntiles ≤ tile then reply s req statusINVALID .none
      else if !mapOk r t e then reply s req statusDENIED (.code codePROT)
      else reply { s with dev := putRun s.dev (setTile r tensor tile { e with w := mayBeWritten t }) } req statusOK .none)

/-! ### MEM_READ and MEM_WRITE (R428) -/

/-- What a host range reaches. -/
inductive HostRange where
  | invalid
  | loft (vault off : Nat)
  | tensor (t : Tensor) (off : Nat)
  deriving DecidableEq, Repr

/-- Judge a pointer and length (R428). -/
def hostRange (r : Run) (n len : Nat) : HostRange :=
  if 2 ^ 20 < len then .invalid
  else if n / 2 ^ 62 = 1 then
    let v := n / 2 ^ 26 % 32
    if n / 2 ^ 31 % 2 ^ 31 != 0 || (windowFrames r v).length * frameBytes < n % 2 ^ 26 + len then .invalid
    else .loft v (n % 2 ^ 26)
  else if n / 2 ^ 62 = 2 then
    match imgTensor r.image (n / 2 ^ 44 % 4096) with
    | none => .invalid
    | some t => if n / 2 ^ 56 % 64 != 0 || t.size < n % 2 ^ 44 + len then .invalid else .tensor t (n % 2 ^ 44)
  else .invalid

/-- The tiles of `len` bytes at an offset. -/
def tilesOf (off len : Nat) : List Nat :=
  if len = 0 then [] else (List.range ((off + len - 1) / frameBytes + 1 - off / frameBytes)).map fun i => off / frameBytes + i

/-- Map what is missing of a range (R378). -/
def mapRange (d : Dev) (run : Nat) (t : Tensor) (l : List Nat) : Dev :=
  l.foldl (fun d i =>
    match (findRun d run).bind fun r => (r.tables.find? fun x => x.handle = t.handle).bind fun x => tileOf x.entries i with
    | some e => if e.v then d else (mapTile d run t i).getD d
    | none => (mapTile d run t i).getD d) d

/-- The device address of byte `o` of a tensor, where its tile is mapped. -/
def tensorByte (r : Run) (handle o : Nat) : Option Nat :=
  ((r.tables.find? fun x => x.handle = handle).bind fun x => tileOf x.entries (o / frameBytes)).bind fun e =>
    if e.v then some (frameAddr e.loft e.frame (o % frameBytes)) else none

/-- The device addresses of a host range, after mapping; `none` where a tile cannot be mapped. -/
def hostAddrs (d : Dev) (run len : Nat) : HostRange → Dev × Option (List Nat)
  | .invalid => (d, none)
  | .loft v off =>
    (d, (findRun d run).map fun r => (List.range len).map fun i =>
      frameAddr true ((windowFrames r v).getD ((off + i) / frameBytes) 0) ((off + i) % frameBytes))
  | .tensor t off =>
    let d1 := mapRange d run t (tilesOf off len)
    (d1, (findRun d1 run).bind fun r => (List.range len).mapM fun i => tensorByte r t.handle (off + i))

/-- Whether a range may be reached now: STAGED and ORDERED only between grants (R428). -/
def hostMay (r : Run) : HostRange → Bool
  | .tensor t _ => t.order = .live || r.instants.isEmpty
  | _ => true

/-- The settled values of a run's cells become base values (R259, R428). -/
def settleRun (s : State) (run : Nat) : State :=
  let words := (s.dev.cells.filter fun c => c.run = run).map (·.word)
  { s with dev := words.foldl (fun d w => foldCell d w (ridgeOr s run)) s.dev }

/-- A host access: its range judged, its bytes given to `f` (R428). -/
def hostAccess (req : Word) (run n len : Nat) (s : State) (f : State → List Nat → State) : State :=
  match findRun s.dev run with
  | none => reply s req statusNOTFOUND .none
  | some r =>
    match hostRange r n len with
    | .invalid => reply s req statusINVALID .none
    | x =>
      if !hostMay r x then reply s req statusDENIED .none
      else
        let s1 := if r.instants.isEmpty then settleRun s run else s
        let (d, l) := hostAddrs s1.dev run len x
        match l with
        | some l => f { s1 with dev := d } l
        | none => reply s req statusNOTFOUND .none

/-- MEM_READ: an acquire at system scope (R428). -/
def execMemRead (req : Word) (run : Nat) (ptr : Word) (len : Nat) (s : State) : Host.Outcome State Fault Refusal :=
  .next (serve false false req s fun s =>
    hostAccess req run ptr.toNat len s fun s l => reply s req statusOK (.bytes (l.map (memRead s.dev.mem))))

/-- MEM_WRITE: performed before its reply, a release at system scope (R428). -/
def execMemWrite (req : Word) (run : Nat) (ptr : Word) (bytes : List Byte) (s : State) : Host.Outcome State Fault Refusal :=
  .next (serve false false req s fun s =>
    hostAccess req run ptr.toNat bytes.length s fun s l =>
      let mem := (l.zip bytes).foldl (fun m x => memWrite m x.1 x.2) s.dev.mem
      reply { s with dev := { s.dev with mem := mem } } req statusOK .none)

/-! ### Keys and attestation (R432, R433) -/

/-- KEY_SET (R432). -/
def execKeySet (req : Word) (slot : Nat) (k0 k1 : BitVec 256) (s : State) : Host.Outcome State Fault Refusal :=
  .next (serve false false req s fun s =>
    if 64 ≤ slot then reply s req statusINVALID .none
    else if (holders s.dev).any fun r => r.keySlot = slot then reply s req statusDENIED .none
    else
      let rest := s.dev.keys.filter fun x => x.1 != slot
      let keys := if k0 = 0 && k1 = 0 then rest else rest ++ [(slot, { key0 := k0, key1 := k1 })]
      reply { s with dev := { s.dev with keys := keys } } req statusOK .none)

/-- The report of ATTEST: nonce, identity, firmware version and digest, fused minimum, failed-start count, reason codes,
the digests of the loaded images, the occupancy of the key slots (R433). -/
def attestBody (d : Dev) (nonce : BitVec 256) : List Byte :=
  let fw := d.running
  bytesOfNat 32 nonce.toNat ++ Config.deviceIdentity
    ++ bytesOfNat 8 (match fw with | some f => f.version | none => 0)
    ++ bytesOfNat 64 (match fw with | some f => (Config.sha3 f.code).toNat | none => 0)
    ++ bytesOfNat 8 Config.fusedMinVersion ++ bytesOfNat 8 d.failedStarts
    ++ (d.reasons.map fun c => BitVec.ofNat 8 c)
    ++ (d.images.flatMap fun x => bytesOfNat 64 (Config.imageDigest x.2).toNat)
    ++ bytesOfNat 8 (d.keys.foldl (fun m x => Nat.lor m (2 ^ x.1)) 0)

/-- ATTEST: signed over the report's digest (R433). -/
def execAttest (req : Word) (nonce : BitVec 256) (s : State) : Host.Outcome State Fault Refusal :=
  .next (serve true true req s fun s =>
    let body := attestBody s.dev nonce
    reply s req statusOK (.report body (Config.mldsaSign (Config.sha3 body))))

/-! ### RESYNC (R430) -/

/-- A trap record as numbers. -/
def recordNats (r : TrapRec) : List Nat := [r.cause.toNat, r.pc.toNat, r.addr.toNat, r.stamp.toNat, r.info.toNat]

/-- A number for a Boolean. -/
def bitNat (b : Bool) : Nat := if b then 1 else 0

/-- A run: number, image, queue, die mask, key slot, ridge, allowance, reach and state. -/
def runNats (r : Run) (rd : Nat × Nat) (state : Nat) : String × List Nat :=
  ("run", [r.num, r.imageHandle, r.queue, r.dieMask.toNat, r.keySlot, rd.1, rd.2, r.allowance, r.reach, state])

/-- A run that exists: its state is 0 running, or 1 idle (log 62). -/
def runLine (s : State) (r : Run) : String × List Nat := runNats r (ridgeOr s r.num) (if r.instants.isEmpty then 1 else 0)

/-- A run torn down and not reclaimed: its state is 2, tearing down (log 62). -/
def tornLine (x : TornRun) : String × List Nat := runNats x.run x.ridge 2

/-- A queue, as R216 lists it, and its residency. -/
def queueLine (q : Queue) : String × List Nat :=
  ("queue", [q.index, q.gen.toNat, q.priority, q.capacity, q.ring.length, q.parsed,
    match q.run with | some n => n + 1 | none => 0, q.marker.toNat, q.rejects, q.rejectCode, bitNat q.resident])

/-- Whether an activation waits until an entry of its run's table frees: its trap would start a handler, or a request would park it
(R383). -/
def awaitsEntry (s : State) (a : Act) : Bool := (a.preempt || awaitsHandler a) && !canHandle s a

/-- Whether an activation stands frozen, parked or saved, or waits for an entry (R383, R430). -/
def isShown (s : State) (a : Act) : Bool :=
  (runOfKey a.key).isSome && (a.frozen.isSome || a.status = .parked || a.saved.isSome || awaitsEntry s a)

/-- A frozen, parked or saved activation, or one that waits for an entry (R383). -/
def frozenLine (s : State) (a : Act) : String × List Nat :=
  ("frozen", [a.handle.toNat, a.stamp.inst, a.stamp.task, a.stamp.index]
    ++ (match a.frozen with | some f => recordNats f.record | none => recordNats TrapRec.zero)
    ++ [bitNat (awaitsEntry s a)])

/-- A collective in flight: its key and the members not yet matched. -/
def collLine (d : Dev) (c : CollCmd) : String × List Nat :=
  ("collective", [c.block.group, c.block.tag]
    ++ (members c.block.group).filter fun m => m != d.number && !(c.peers.any fun p => p.device = m))

/-- The shares of a budget. -/
def shareNats (x : Shares) : List Nat := [x.program, x.settling, x.scrubbing, x.copies, x.collectives, x.checksums]

/-- The summary of R430. -/
def resyncLines (s : State) : List (String × List Nat) :=
  let d := s.dev
  d.runs.map (runLine s) ++ d.torn.map tornLine ++ (d.queues.filter (·.live)).map queueLine
    ++ ((acts s).filter (isShown s)).map (frozenLine s)
    ++ d.kept.map (fun k => ("kept", k.run :: recordNats k.record)) ++ d.colls.map (collLine d)
    ++ [("budget", (d.homeShares.toList ++ d.vaultShares.toList).flatMap shareNats), ("capacity", d.vaults.toList.map (·.squashes)),
        ("ecc", d.corrected :: d.reported),
        ("temperature", d.cores.toList.map (·.temp) ++ d.stackTemps.toList),
        ("excluded", d.cores.toList.map fun c => bitNat c.excluded),
        ("number", [d.number]), ("woush", d.ports.toList.map fun p => bitNat p.up),
        ("seam", [d.seamResends]),
        ("ethernet", (d.ethernet.toList.zip (List.range 8)).map fun e => bitNat (e.1 && (d.boot != .minimal || e.2 = 0))),
        ("management", [bitNat d.management]), ("unreachable", d.domain.filter fun x => x != d.number && !reachable d x),
        ("firmware", [match d.running with | some f => f.version | none => 0, Config.fusedMinVersion, d.failedStarts,
          bitNat (d.boot = .minimal)] ++ d.reasons)]

/-- RESYNC: it changes nothing but its reply (R427, R430). -/
def execResync (req : Word) (s : State) : Host.Outcome State Fault Refusal :=
  .next (serve true true req s fun s => reply s req statusOK (.resync (resyncLines s)))

/-! ### RESET (R435) -/

/-- What a warm RESET does: runs with all they have on their way, queues, images, signal counters and collectives go; the device takes
its number. -/
def warmEffect (s : State) (device : Fin 64) : State :=
  let s1 := (s.dev.runs.map (·.num)).foldl tearDown s
  let d := (s1.dev.torn.map (·.run.num)).foldl reclaim
    { s1.dev with liveq := s1.dev.liveq.filter fun q => (runOfKey q.who).isNone }
  { s1 with dev := { d with
    queues := s1.dev.queues.map fun q => if q.live then destroyed q else q
    images := [], counters := Vector.replicate 256 0, colls := [], collCounts := [], number := device.val
    domain := (device.val :: s1.dev.domain.filter fun x => x != s1.dev.number).eraseDups } }

/-- A RESET is in progress until it is answered (R429, R435). -/
def beginReset (s : State) (req : Word) : State := { s with dev := { s.dev with resetting := some req } }

/-- The RESET in progress is over: it is answered (R435), which does not yet make its start succeed (log 10). -/
def resetDone (s : State) : State :=
  match s.dev.resetting with
  | some req => reply { s with dev := { s.dev with resetting := none } } req statusOK .none
  | none => s

/-- RESET, warm (R427, R435): not in minimal mode. -/
def execWarmReset (req : Word) (device : Fin 64) (s : State) : Host.Outcome State Fault Refusal :=
  .next (serve true false req s fun s => beginReset (warmEffect s device) req)

/-- RESET, cold: the keys go as well, and the boot ROM runs (R431, R435). -/
def execColdReset (req : Word) (device : Fin 64) (s : State) : Host.Outcome State Fault Refusal :=
  .next (serve true true req s fun s =>
    let s1 := warmEffect s device
    beginReset (bootRom { s1 with dev := { s1.dev with keys := [], boot := .off } }) req)

end Sys2Proof.Machine
end

