-- ==== Sys2Proof/Machine/Scalar.lean ====
section
/-! DEFINITION. SALU, SMUL and I-form arithmetic, LI and PADD (R97-R101). -/
namespace Sys2Proof.Machine

/-- A result of latency `lat` in a scalar register, computed from the registers as they stood before the
bundle (R95). -/
def scalarOp (i : Instr) (d : SReg) (lat : Nat) (f : Act → Word) (s : State) : Host.Outcome State Fault Refusal :=
  issue i s fun t s => resultS s d (f s.act0) lat t

/-- 1 for true, 0 for false. -/
def boolWord (b : Bool) : Word := if b then 1 else 0

/-- A rotation right by `n` of a value of width `w`. -/
def rotrNat (w x n : Nat) : Nat :=
  let k := n % w
  (x / 2 ^ k + x % 2 ^ k * 2 ^ (w - k)) % 2 ^ w

/-- The count of a shift: bits [5:0] (R97). -/
def count6 (b : Word) : Nat := b.toNat % 64

/-- Division rounded towards zero with the cases of R70, R99. -/
def divWord (a b : Word) : Word :=
  if b = 0 then BitVec.allOnes 64 else wordOfInt (Int.tdiv a.toInt b.toInt)

/-- The remainder of that division (R70, R99). -/
def remWord (a b : Word) : Word := if b = 0 then a else wordOfInt (Int.tmod a.toInt b.toInt)

/-- ADD (R97). -/
def execAdd (k : KSel) (d a b : SReg) (s : State) : Host.Outcome State Fault Refusal :=
  scalarOp (.add k d a b) d 1 (fun x => readS x a + readS x b) s
/-- SUB (R97). -/
def execSub (k : KSel) (d a b : SReg) (s : State) : Host.Outcome State Fault Refusal :=
  scalarOp (.sub k d a b) d 1 (fun x => readS x a - readS x b) s
/-- AND (R97). -/
def execAnd (k : KSel) (d a b : SReg) (s : State) : Host.Outcome State Fault Refusal :=
  scalarOp (.and k d a b) d 1 (fun x => readS x a &&& readS x b) s
/-- OR (R97). -/
def execOr (k : KSel) (d a b : SReg) (s : State) : Host.Outcome State Fault Refusal :=
  scalarOp (.or k d a b) d 1 (fun x => readS x a ||| readS x b) s
/-- XOR (R97). -/
def execXor (k : KSel) (d a b : SReg) (s : State) : Host.Outcome State Fault Refusal :=
  scalarOp (.xor k d a b) d 1 (fun x => readS x a ^^^ readS x b) s
/-- ANDN (R97). -/
def execAndn (k : KSel) (d a b : SReg) (s : State) : Host.Outcome State Fault Refusal :=
  scalarOp (.andn k d a b) d 1 (fun x => readS x a &&& ~~~(readS x b)) s
/-- SHL (R97). -/
def execShl (k : KSel) (d a b : SReg) (s : State) : Host.Outcome State Fault Refusal :=
  scalarOp (.shl k d a b) d 1 (fun x => readS x a <<< count6 (readS x b)) s
/-- SHR (R97). -/
def execShr (k : KSel) (d a b : SReg) (s : State) : Host.Outcome State Fault Refusal :=
  scalarOp (.shr k d a b) d 1 (fun x => readS x a >>> count6 (readS x b)) s
/-- SAR (R97). -/
def execSar (k : KSel) (d a b : SReg) (s : State) : Host.Outcome State Fault Refusal :=
  scalarOp (.sar k d a b) d 1 (fun x => (readS x a).sshiftRight (count6 (readS x b))) s
/-- ROTR (R97). -/
def execRotr (k : KSel) (d a b : SReg) (s : State) : Host.Outcome State Fault Refusal :=
  scalarOp (.rotr k d a b) d 1 (fun x => BitVec.ofNat 64 (rotrNat 64 (readS x a).toNat (count6 (readS x b)))) s
/-- MIN, signed (R97). -/
def execMin (k : KSel) (d a b : SReg) (s : State) : Host.Outcome State Fault Refusal :=
  scalarOp (.min k d a b) d 1 (fun x => if (readS x a).toInt ≤ (readS x b).toInt then readS x a else readS x b) s
/-- MAX, signed (R97). -/
def execMax (k : KSel) (d a b : SReg) (s : State) : Host.Outcome State Fault Refusal :=
  scalarOp (.max k d a b) d 1 (fun x => if (readS x a).toInt ≤ (readS x b).toInt then readS x b else readS x a) s
/-- MINN, unsigned (R97). -/
def execMinn (k : KSel) (d a b : SReg) (s : State) : Host.Outcome State Fault Refusal :=
  scalarOp (.minn k d a b) d 1 (fun x => if (readS x a).toNat ≤ (readS x b).toNat then readS x a else readS x b) s
/-- MAXN, unsigned (R97). -/
def execMaxn (k : KSel) (d a b : SReg) (s : State) : Host.Outcome State Fault Refusal :=
  scalarOp (.maxn k d a b) d 1 (fun x => if (readS x a).toNat ≤ (readS x b).toNat then readS x b else readS x a) s
/-- SEQ: set if equal (R97). -/
def execSeq (k : KSel) (d a b : SReg) (s : State) : Host.Outcome State Fault Refusal :=
  scalarOp (.seq k d a b) d 1 (fun x => boolWord (readS x a = readS x b)) s
/-- SNE (R97). -/
def execSne (k : KSel) (d a b : SReg) (s : State) : Host.Outcome State Fault Refusal :=
  scalarOp (.sne k d a b) d 1 (fun x => boolWord (readS x a ≠ readS x b)) s
/-- SLT, signed (R97). -/
def execSlt (k : KSel) (d a b : SReg) (s : State) : Host.Outcome State Fault Refusal :=
  scalarOp (.slt k d a b) d 1 (fun x => boolWord (decide ((readS x a).toInt < (readS x b).toInt))) s
/-- SLTN, unsigned (R97). -/
def execSltn (k : KSel) (d a b : SReg) (s : State) : Host.Outcome State Fault Refusal :=
  scalarOp (.sltn k d a b) d 1 (fun x => boolWord (decide ((readS x a).toNat < (readS x b).toNat))) s
/-- SEL: sA if the old sD is not zero, else sB (R97). -/
def execSel (k : KSel) (d a b : SReg) (s : State) : Host.Outcome State Fault Refusal :=
  scalarOp (.sel k d a b) d 1 (fun x => if readS x d = 0 then readS x b else readS x a) s
/-- CLZ (R97). -/
def execClz (k : KSel) (d a : SReg) (s : State) : Host.Outcome State Fault Refusal :=
  scalarOp (.clz k d a) d 1 (fun x => BitVec.ofNat 64 (clzNat 64 (readS x a).toNat)) s
/-- CTZ (R97). -/
def execCtz (k : KSel) (d a : SReg) (s : State) : Host.Outcome State Fault Refusal :=
  scalarOp (.ctz k d a) d 1 (fun x => BitVec.ofNat 64 (ctzNat 64 (readS x a).toNat)) s
/-- POPC (R97). -/
def execPopc (k : KSel) (d a : SReg) (s : State) : Host.Outcome State Fault Refusal :=
  scalarOp (.popc k d a) d 1 (fun x => BitVec.ofNat 64 (popcNat 64 (readS x a).toNat)) s

/-- The checked pointer sum of R98; `none` is WIN. -/
def paddSum (a b : Word) : Option Word :=
  let sum : Int := (a.toNat : Int) + b.toInt
  if a.toNat / 2 ^ 62 = 3 then none
  else if sum < 0 || (2 ^ 64 : Nat) ≤ sum then none
  else
    let n := sum.toNat
    if n / 2 ^ 62 ≠ a.toNat / 2 ^ 62 then none
    else if a.toNat / 2 ^ 62 = 2 && n / 2 ^ 44 ≠ a.toNat / 2 ^ 44 then none
    else some (BitVec.ofNat 64 n)

/-- PADD: WIN with TADDR sA and TINFO sB (R98). -/
def execPadd (k : KSel) (d a b : SReg) (s : State) : Host.Outcome State Fault Refusal :=
  issue (.padd k d a b) s fun t s =>
    let x := readS s.act0 a
    let y := readS s.act0 b
    match paddSum x y with
    | some z => resultS s d z 1 t
    | none => slotTrap s codeWIN x.toNat y.toNat

/-- MUL (R99). -/
def execMul (k : KSel) (d a b : SReg) (s : State) : Host.Outcome State Fault Refusal :=
  scalarOp (.mul k d a b) d 3 (fun x => readS x a * readS x b) s
/-- MULH (R99). -/
def execMulh (k : KSel) (d a b : SReg) (s : State) : Host.Outcome State Fault Refusal :=
  scalarOp (.mulh k d a b) d 4 (fun x => wordOfInt ((readS x a).toInt * (readS x b).toInt / (2 ^ 64 : Nat))) s
/-- MULHN (R99). -/
def execMulhn (k : KSel) (d a b : SReg) (s : State) : Host.Outcome State Fault Refusal :=
  scalarOp (.mulhn k d a b) d 4 (fun x => BitVec.ofNat 64 ((readS x a).toNat * (readS x b).toNat / 2 ^ 64)) s
/-- DIV (R70, R99). -/
def execDiv (k : KSel) (d a b : SReg) (s : State) : Host.Outcome State Fault Refusal :=
  scalarOp (.div k d a b) d 20 (fun x => divWord (readS x a) (readS x b)) s
/-- DIVN (R70, R99). -/
def execDivn (k : KSel) (d a b : SReg) (s : State) : Host.Outcome State Fault Refusal :=
  scalarOp (.divn k d a b) d 20 (fun x => if readS x b = 0 then BitVec.allOnes 64 else readS x a / readS x b) s
/-- REM (R70, R99). -/
def execRem (k : KSel) (d a b : SReg) (s : State) : Host.Outcome State Fault Refusal :=
  scalarOp (.rem k d a b) d 20 (fun x => remWord (readS x a) (readS x b)) s
/-- REMN (R70, R99). -/
def execRemn (k : KSel) (d a b : SReg) (s : State) : Host.Outcome State Fault Refusal :=
  scalarOp (.remn k d a b) d 20 (fun x => if readS x b = 0 then readS x a else readS x a % readS x b) s

/-- ADDI (R100). -/
def execAddi (k : KSel) (d a : SReg) (imm : BitVec 11) (s : State) : Host.Outcome State Fault Refusal :=
  scalarOp (.addi k d a imm) d 1 (fun x => readS x a + immWord s imm) s
/-- ANDI (R100). -/
def execAndi (k : KSel) (d a : SReg) (imm : BitVec 11) (s : State) : Host.Outcome State Fault Refusal :=
  scalarOp (.andi k d a imm) d 1 (fun x => readS x a &&& immWord s imm) s
/-- ORI (R100). -/
def execOri (k : KSel) (d a : SReg) (imm : BitVec 11) (s : State) : Host.Outcome State Fault Refusal :=
  scalarOp (.ori k d a imm) d 1 (fun x => readS x a ||| immWord s imm) s
/-- XORI (R100). -/
def execXori (k : KSel) (d a : SReg) (imm : BitVec 11) (s : State) : Host.Outcome State Fault Refusal :=
  scalarOp (.xori k d a imm) d 1 (fun x => readS x a ^^^ immWord s imm) s
/-- SHLI (R100). -/
def execShli (k : KSel) (d a : SReg) (n : Fin 64) (s : State) : Host.Outcome State Fault Refusal :=
  scalarOp (.shli k d a n) d 1 (fun x => readS x a <<< n.val) s
/-- SHRI (R100). -/
def execShri (k : KSel) (d a : SReg) (n : Fin 64) (s : State) : Host.Outcome State Fault Refusal :=
  scalarOp (.shri k d a n) d 1 (fun x => readS x a >>> n.val) s
/-- SARI (R100). -/
def execSari (k : KSel) (d a : SReg) (n : Fin 64) (s : State) : Host.Outcome State Fault Refusal :=
  scalarOp (.sari k d a n) d 1 (fun x => (readS x a).sshiftRight n.val) s
/-- SLTI, signed (R100). -/
def execSlti (k : KSel) (d a : SReg) (imm : BitVec 11) (s : State) : Host.Outcome State Fault Refusal :=
  scalarOp (.slti k d a imm) d 1 (fun x => boolWord (decide ((readS x a).toInt < immOf s imm))) s
/-- SLTNI, unsigned (R100). -/
def execSltni (k : KSel) (d a : SReg) (imm : BitVec 11) (s : State) : Host.Outcome State Fault Refusal :=
  scalarOp (.sltni k d a imm) d 1 (fun x => boolWord (decide ((readS x a).toNat < (immWord s imm).toNat))) s

/-- LI: its destination takes tag 30 (R14, R101). -/
def execLi (k : KSel) (d : SReg) (imm : BitVec 11) (s : State) : Host.Outcome State Fault Refusal :=
  issue (.li k d imm) s fun _ s => resultS s d (immWord s imm) 1 tagUniversal

/-! ### Literal extension (R56) -/

/-- LITERAL_EXTENSION: its payload waits for the slot that follows. -/
def execLiteralExtension (payload : BitVec 21) (s : State) : Host.Outcome State Fault Refusal :=
  .next { s with iss := { s.iss with ext := s.iss.ext ++ [payload] } }

end Sys2Proof.Machine
end

