-- ==== Sys2Proof/Machine/Surroundings.lean ====
section
/-! DEFINITION. What the surroundings do: temperature, links, soft errors, the budget period (R336, R384, R412, R413,
R434). -/
namespace Sys2Proof.Machine

/-! ### Temperature (R434) -/

/-- THERMAL_EXCLUSION: at 110 °C the core is excluded, and every activation on it is asked to pre-empt (R405, R434). -/
def execThermalExclusion (core : Fin 32) (temp : Nat) (s : State) : Host.Outcome State Fault Refusal :=
  .next (
    if temp < 110 then s
    else
      let c := getCore s.dev core.val
      let s1 := { s with dev := putCore s.dev core.val { c with temp := temp, excluded := true } }
      if c.excluded then s1
      else (List.range 8).foldl (fun s k => (requestPreempt s core.val k).1) s1)

/-- THERMAL_READMISSION: at 100 °C or below the core is readmitted (R434). -/
def execThermalReadmission (core : Fin 32) (temp : Nat) (s : State) : Host.Outcome State Fault Refusal :=
  .next (
    let c := getCore s.dev core.val
    if c.excluded && decide (temp ≤ 100) then
      { s with dev := putCore s.dev core.val { c with temp := temp, excluded := false } }
    else s)

/-! ### Links (R412, R413) -/

/-- WOUSH_FLIT_RESEND: one more failed resend in a row on a port that is up (R413). -/
def execWoushFlitResend (port : Fin 12) (s : State) : Host.Outcome State Fault Refusal :=
  .next (
    let p := s.dev.ports[port.val]
    if p.up && decide (p.resends < 16) then
      { s with dev := { s.dev with ports := s.dev.ports.set port.val { p with resends := p.resends + 1 } } }
    else s)

/-- The flit a port sends is received intact: its run of failed resends ends, where it has not reached 16 (R413). -/
def flitIntact (port : Fin 12) (s : State) : State :=
  let p := s.dev.ports[port.val]
  if p.up && decide (p.resends < 16) then
    { s with dev := { s.dev with ports := s.dev.ports.set port.val { p with resends := 0 } } }
  else s

/-- WOUSH_PORT_DOWN: after 16 consecutive failed resends (R413). -/
def execWoushPortDown (port : Fin 12) (s : State) : Host.Outcome State Fault Refusal :=
  .next (
    let p := s.dev.ports[port.val]
    if p.up && decide (16 ≤ p.resends) then
      { s with dev := { s.dev with ports := s.dev.ports.set port.val { p with up := false } } }
    else s)

/-- SEAM_FLIT_RESEND: counted; its delay is stall cycles only (R412). -/
def execSeamFlitResend (s : State) : Host.Outcome State Fault Refusal :=
  .next { s with dev := { s.dev with seamResends := s.dev.seamResends + 1 } }

/-! ### Soft errors (R384) -/

/-- SOFT_ERROR_CORRECTION: the error at a device byte is corrected and counted; no program sees it. -/
def execSoftErrorCorrection (addr : Nat) (s : State) : Host.Outcome State Fault Refusal :=
  if isDeviceByte addr then .next { s with dev := { s.dev with corrected := s.dev.corrected + 1 } }
  else .fault (.noSuchAddress addr)

/-- Whether a run owns a device byte: one of its frames, or a scratch bank of one of its activations. -/
def ownsByte (s : State) (r : Run) (addr : Nat) : Bool :=
  (decide (addr < loftBase) && r.hbmFrames.contains (addr / frameBytes))
    || (decide (loftBase ≤ addr) && decide (addr < 2 ^ 41) && r.loftFrames.contains ((addr - loftBase) / frameBytes))
    || ((runActs s r.num).any fun a => match a.place with
      | some p => decide (p.core < 32) && p.banks.any fun b =>
          decide (bankAddr p.core b 0 ≤ addr) && decide (addr < bankAddr p.core b 0 + bankBytes)
      | none => false)

/-- SCRUB_UNCORRECTABLE: each run that owns the data is torn down, and the address is reported. -/
def execScrubUncorrectable (addr : Nat) (s : State) : Host.Outcome State Fault Refusal :=
  if isDeviceByte addr then
    let s1 := ((s.dev.runs.filter fun r => ownsByte s r addr).map (·.num)).foldl tearDown s
    .next { s1 with dev := { s1.dev with reported := s1.dev.reported ++ [addr] } }
  else .fault (.noSuchAddress addr)

/-! ### Budgets (R336) -/

/-- The cycles of a budget period. -/
def periodCycles : Nat := 4096

/-- BUDGET_PERIOD: a period of 4,096 cycles is over and every share begins anew. -/
def execBudgetPeriod (s : State) : Host.Outcome State Fault Refusal :=
  .next (
    if s.dev.period + periodCycles ≤ s.dev.cycle then
      { s with dev := { s.dev with period := s.dev.cycle / periodCycles * periodCycles } }
    else s)

end Sys2Proof.Machine
end

