-- ==== Sys2Proof/Machine/VectorArith.lean ====
section
/-! DEFINITION. Vector arithmetic, comparison, selection, conversion, bitwise operations, shifts and unary operations
(R138-R152). -/
namespace Sys2Proof.Machine

/-- The results of all lanes of width `w`. -/
def laneResults (w : Nat) (f : Nat → FRes) : List FRes := (List.range (lanes w)).map f

/-- The values of lane results as a vector. -/
def vecOfResults (w : Nat) (l : List FRes) : Vec := ofLaneList w (l.map (·.1))

/-- A vector instruction of latency `lat` whose lanes of width `w` are computed from the registers as they stood
before the bundle, with flags (R84, R85, R139). -/
def vectorOp (i : Instr) (d : VReg) (w lat : Nat) (f : State → Nat → FRes) (s : State) :
    Host.Outcome State Fault Refusal :=
  issue i s fun t s =>
    let l := laneResults w (f s)
    withFlags s l 0 fun s => resultV s d (vecOfResults w l) lat t

/-- A vector instruction that sets no flag. -/
def vectorOpN (i : Instr) (d : VReg) (w lat : Nat) (f : State → Nat → Nat) (s : State) :
    Host.Outcome State Fault Refusal :=
  vectorOp i d w lat (fun s n => (f s n, noFlags)) s

/-- The latency of FP addition, multiplication and FMA (R24). -/
def fpLat (t : LaneType) : Nat := if t = .f64 then 6 else 4

/-- An integer result: modulo 2^w, or clamped to the signed range under M = 110 (R69, R142). -/
def intResult (w : Nat) (m : Rnd) (x : Int) : FRes :=
  (wrapNat w (if m = .sat then clampInt (intMin true w) (intMax true w) x else x), noFlags)

/-- A lane of a register as a signed integer. -/
def slane (w : Nat) (v : Vec) (n : Nat) : Int := sextInt w (lane w v n)

/-- The lane results of VADD, VSUB and VMUL (R142). -/
def arithLane (t : LaneType) (m : Rnd) (ff : FFmt → Mode → Nat → Nat → FRes) (fi : Int → Int → Int) (a b : VReg)
    (s : State) (n : Nat) : FRes :=
  let w := ltWidth t
  let x := readV s.act0 a
  let y := readV s.act0 b
  if ltFloat t then ff (ltFmt t) (fpMode s m) (lane w x n) (lane w y n)
  else intResult w m (fi (slane w x n) (slane w y n))

/-- VADD (R142). -/
def execVadd (k : KSel) (d a b : VReg) (t : LaneType) (m : Rnd) (s : State) : Host.Outcome State Fault Refusal :=
  vectorOp (.vadd k d a b t m) d (ltWidth t) (if ltFloat t then fpLat t else 2) (arithLane t m fAdd (· + ·) a b) s

/-- VSUB (R142). -/
def execVsub (k : KSel) (d a b : VReg) (t : LaneType) (m : Rnd) (s : State) : Host.Outcome State Fault Refusal :=
  vectorOp (.vsub k d a b t m) d (ltWidth t) (if ltFloat t then fpLat t else 2) (arithLane t m fSub (· - ·) a b) s

/-- VMUL (R142). -/
def execVmul (k : KSel) (d a b : VReg) (t : LaneType) (m : Rnd) (s : State) : Host.Outcome State Fault Refusal :=
  vectorOp (.vmul k d a b t m) d (ltWidth t) (if ltFloat t then fpLat t else 4) (arithLane t m fMul (· * ·) a b) s

/-- The lane results of the fused forms (R142). -/
def fmaLane (t : LaneType) (m : Rnd) (negP negD : Bool) (d a b : VReg) (s : State) (n : Nat) : FRes :=
  let w := ltWidth t
  fFma (ltFmt t) (fpMode s m) negP negD (lane w (readV s.act0 a) n) (lane w (readV s.act0 b) n)
    (lane w (readV s.act0 d) n)

/-- VFMA (R142). -/
def execVfma (k : KSel) (d a b : VReg) (t : LaneType) (m : Rnd) (s : State) : Host.Outcome State Fault Refusal :=
  vectorOp (.vfma k d a b t m) d (ltWidth t) (fpLat t) (fmaLane t m false false d a b) s

/-- VFMS (R142). -/
def execVfms (k : KSel) (d a b : VReg) (t : LaneType) (m : Rnd) (s : State) : Host.Outcome State Fault Refusal :=
  vectorOp (.vfms k d a b t m) d (ltWidth t) (fpLat t) (fmaLane t m false true d a b) s

/-- VFNMA (R142). -/
def execVfnma (k : KSel) (d a b : VReg) (t : LaneType) (m : Rnd) (s : State) : Host.Outcome State Fault Refusal :=
  vectorOp (.vfnma k d a b t m) d (ltWidth t) (fpLat t) (fmaLane t m true false d a b) s

/-- VDIV (R24, R142). -/
def execVdiv (k : KSel) (d a b : VReg) (t : LaneType) (m : Rnd) (s : State) : Host.Outcome State Fault Refusal :=
  vectorOp (.vdiv k d a b t m) d (ltWidth t) (if t = .f64 then 24 else 14) (fun s n =>
    fDiv (ltFmt t) (fpMode s m) (lane (ltWidth t) (readV s.act0 a) n) (lane (ltWidth t) (readV s.act0 b) n)) s

/-- VSQRT (R24, R142). -/
def execVsqrt (k : KSel) (d a : VReg) (t : LaneType) (m : Rnd) (s : State) : Host.Outcome State Fault Refusal :=
  vectorOp (.vsqrt k d a t m) d (ltWidth t) (if t = .f64 then 28 else 16) (fun s n =>
    fSqrt (ltFmt t) (fpMode s m) (lane (ltWidth t) (readV s.act0 a) n)) s

/-- Integer VMINMAX: MIN, MAX, MINN, MAXN (R83). -/
def intMinMax (op : MinMaxOp) (w x y : Nat) : Nat :=
  match op with
  | .minNum => if sextInt w x ≤ sextInt w y then x else y
  | .maxNum => if sextInt w x ≤ sextInt w y then y else x
  | .minimum => if x ≤ y then x else y
  | .maximum => if x ≤ y then y else x

/-- VMINMAX (R83, R144). -/
def execVminmax (k : KSel) (d a b : VReg) (t : LaneType) (m : MinMaxOp) (s : State) :
    Host.Outcome State Fault Refusal :=
  vectorOp (.vminmax k d a b t m) d (ltWidth t) 2 (fun s n =>
    let x := lane (ltWidth t) (readV s.act0 a) n
    let y := lane (ltWidth t) (readV s.act0 b) n
    if ltFloat t then fMinMax (ltFmt t) m x y else (intMinMax m (ltWidth t) x y, noFlags)) s

/-- An integer relation (R143). -/
def intCmp (c : CmpOp) (w x y : Nat) : Bool :=
  match c with
  | .eq => x = y
  | .ne => x != y
  | .lt => decide (sextInt w x < sextInt w y)
  | .le => decide (sextInt w x ≤ sextInt w y)
  | .ltn => decide (x < y)
  | .len => decide (x ≤ y)
  | .un => false

/-- VCMP (R143). -/
def execVcmp (k : KSel) (d a b : VReg) (t : LaneType) (c : CmpOp) (s : State) : Host.Outcome State Fault Refusal :=
  vectorOp (.vcmp k d a b t c) d (ltWidth t) 2 (fun s n =>
    let w := ltWidth t
    let x := lane w (readV s.act0 a) n
    let y := lane w (readV s.act0 b) n
    let r := if ltFloat t then fCmp (ltFmt t) c x y else (intCmp c w x y, noFlags)
    (if r.1 then 2 ^ w - 1 else 0, r.2)) s

/-! ### VCVT (R86, R87, R145) -/

/-- The lane pairs of a conversion, as first source lane, first destination lane, count (R87). -/
def cvtPairs (ws wd part : Nat) : Nat × Nat × Nat :=
  if ws = wd then (0, 0, lanes wd)
  else if ws < wd then (part % (wd / ws) * lanes wd, 0, lanes wd)
  else (0, part % (ws / wd) * lanes ws, lanes ws)

/-- The processed lanes' results and the first destination lane. -/
def cvtResults (dst src : Fmt4) (mode : Mode) (part : Nat) (v : Vec) : List FRes × Nat :=
  if src = .x128 then
    let f := match fmt4Kind dst with | .flt f => f | _ => fmtF64
    let c := x128OfVec v
    ([readout 125 f mode c.sum c.e], 0)
  else
    let p := cvtPairs (fmt4Width src) (fmt4Width dst) part
    ((List.range p.2.2).map fun i =>
      convert (fmt4Kind src) (fmt4Kind dst) mode (lane (fmt4Width src) v (p.1 + i)), p.2.1)

/-- Put results into consecutive lanes of a register, every other lane kept (R87). -/
def putLanes (w : Nat) (v : Vec) (base : Nat) (l : List FRes) : Vec :=
  ofLanes w fun i => if base ≤ i && i < base + l.length then (l.getD (i - base) (0, noFlags)).1 else lane w v i

/-- VCVT (R145). -/
def execVcvt (k : KSel) (d a : VReg) (dst src : Fmt4) (r : Rnd) (s : State) : Host.Outcome State Fault Refusal :=
  issue (.vcvt k d a dst src r) s fun t s =>
    let x := cvtResults dst src (fpMode s r) s.act0.vpart.toNat (readV s.act0 a)
    withFlags s x.1 x.2 fun s => resultV s d (putLanes (fmt4Width dst) (readV s.act0 d) x.2 x.1) 3 t

/-! ### Bitwise operations and shifts (R146, R147) -/

/-- A bitwise operation on all 2048 bits. -/
def bitOp (i : Instr) (d : VReg) (f : Act → Vec) (s : State) : Host.Outcome State Fault Refusal :=
  issue i s fun t s => resultV s d (f s.act0) 2 t

/-- VBIT AND (R146). -/
def execVbitAnd (k : KSel) (d a b : VReg) (s : State) : Host.Outcome State Fault Refusal :=
  bitOp (.vbitAnd k d a b) d (fun x => readV x a &&& readV x b) s
/-- VBIT OR (R146). -/
def execVbitOr (k : KSel) (d a b : VReg) (s : State) : Host.Outcome State Fault Refusal :=
  bitOp (.vbitOr k d a b) d (fun x => readV x a ||| readV x b) s
/-- VBIT XOR (R146). -/
def execVbitXor (k : KSel) (d a b : VReg) (s : State) : Host.Outcome State Fault Refusal :=
  bitOp (.vbitXor k d a b) d (fun x => readV x a ^^^ readV x b) s
/-- VBIT ANDN (R146). -/
def execVbitAndn (k : KSel) (d a b : VReg) (s : State) : Host.Outcome State Fault Refusal :=
  bitOp (.vbitAndn k d a b) d (fun x => readV x a &&& ~~~(readV x b)) s
/-- VBIT NOT (R146). -/
def execVbitNot (k : KSel) (d a : VReg) (s : State) : Host.Outcome State Fault Refusal :=
  bitOp (.vbitNot k d a) d (fun x => ~~~(readV x a)) s

/-- The lane and the count of a shift: the count is vB's lane modulo w (R147). -/
def shiftLane (t : LaneType) (a b : VReg) (f : Nat → Nat → Nat → Nat) (s : State) (n : Nat) : Nat :=
  let w := ltWidth t
  f w (lane w (readV s.act0 a) n) (lane w (readV s.act0 b) n % w)

/-- VSHIFT SHL (R147). -/
def execVshiftShl (k : KSel) (d a b : VReg) (t : LaneType) (s : State) : Host.Outcome State Fault Refusal :=
  vectorOpN (.vshiftShl k d a b t) d (ltWidth t) 2 (shiftLane t a b fun w x c => x * 2 ^ c % 2 ^ w) s
/-- VSHIFT SHR (R147). -/
def execVshiftShr (k : KSel) (d a b : VReg) (t : LaneType) (s : State) : Host.Outcome State Fault Refusal :=
  vectorOpN (.vshiftShr k d a b t) d (ltWidth t) 2 (shiftLane t a b fun _ x c => x / 2 ^ c) s
/-- VSHIFT SAR (R147). -/
def execVshiftSar (k : KSel) (d a b : VReg) (t : LaneType) (s : State) : Host.Outcome State Fault Refusal :=
  vectorOpN (.vshiftSar k d a b t) d (ltWidth t) 2
    (shiftLane t a b fun w x c => wrapNat w (sextInt w x / (2 ^ c : Nat))) s
/-- VSHIFT ROTR (R147). -/
def execVshiftRotr (k : KSel) (d a b : VReg) (t : LaneType) (s : State) : Host.Outcome State Fault Refusal :=
  vectorOpN (.vshiftRotr k d a b t) d (ltWidth t) 2
    (shiftLane t a b fun w x c => (x / 2 ^ c + x % 2 ^ c * 2 ^ (w - c)) % 2 ^ w) s

/-! ### Unary operations and VSCALB (R148-R152) -/

/-- The lane of a unary operation's source. -/
def unLane (t : LaneType) (a : VReg) (s : State) (n : Nat) : Nat := lane (ltWidth t) (readV s.act0 a) n

/-- VUNARY ABS (R148). -/
def execVunaryAbs (k : KSel) (d a : VReg) (t : LaneType) (s : State) : Host.Outcome State Fault Refusal :=
  vectorOpN (.vunaryAbs k d a t) d (ltWidth t) 2 (fun s n =>
    let x := unLane t a s n
    if ltFloat t then x % 2 ^ (ltWidth t - 1) else wrapNat (ltWidth t) ((sextInt (ltWidth t) x).natAbs : Nat)) s
/-- VUNARY NEG (R148). -/
def execVunaryNeg (k : KSel) (d a : VReg) (t : LaneType) (s : State) : Host.Outcome State Fault Refusal :=
  vectorOpN (.vunaryNeg k d a t) d (ltWidth t) 2 (fun s n =>
    let x := unLane t a s n
    if ltFloat t then Nat.xor x (2 ^ (ltWidth t - 1)) else (2 ^ ltWidth t - x) % 2 ^ ltWidth t) s
/-- VUNARY CLASS (R149). -/
def execVunaryClass (k : KSel) (d a : VReg) (t : LaneType) (s : State) : Host.Outcome State Fault Refusal :=
  vectorOpN (.vunaryClass k d a t) d (ltWidth t) 2 (fun s n => 2 ^ fClass (ltFmt t) (unLane t a s n)) s
/-- VUNARY GETEXP (R150). -/
def execVunaryGetexp (k : KSel) (d a : VReg) (t : LaneType) (s : State) : Host.Outcome State Fault Refusal :=
  vectorOp (.vunaryGetexp k d a t) d (ltWidth t) 2 (fun s n => fGetexp (ltFmt t) (unLane t a s n)) s
/-- VUNARY CLZ (R148). -/
def execVunaryClz (k : KSel) (d a : VReg) (t : LaneType) (s : State) : Host.Outcome State Fault Refusal :=
  vectorOpN (.vunaryClz k d a t) d (ltWidth t) 2 (fun s n => clzNat (ltWidth t) (unLane t a s n)) s
/-- VUNARY POPC (R148). -/
def execVunaryPopc (k : KSel) (d a : VReg) (t : LaneType) (s : State) : Host.Outcome State Fault Refusal :=
  vectorOpN (.vunaryPopc k d a t) d (ltWidth t) 2 (fun s n => popcNat (ltWidth t) (unLane t a s n)) s
/-- VUNARY RCPE (R141, R151). -/
def execVunaryRcpe (k : KSel) (d a : VReg) (t : LaneType) (s : State) : Host.Outcome State Fault Refusal :=
  vectorOp (.vunaryRcpe k d a t) d (ltWidth t) 4 (fun s n => fRcpe (ltFmt t) (unLane t a s n)) s
/-- VUNARY RSQE (R141, R151). -/
def execVunaryRsqe (k : KSel) (d a : VReg) (t : LaneType) (s : State) : Host.Outcome State Fault Refusal :=
  vectorOp (.vunaryRsqe k d a t) d (ltWidth t) 4 (fun s n => fRsqe (ltFmt t) (unLane t a s n)) s

/-- VSCALB (R141, R152). -/
def execVscalb (k : KSel) (d a b : VReg) (t : LaneType) (m : Rnd) (s : State) : Host.Outcome State Fault Refusal :=
  vectorOp (.vscalb k d a b t m) d (ltWidth t) (fpLat t) (fun s n =>
    fScalb (ltFmt t) (fpMode s m) (unLane t a s n) (slane (ltWidth t) (readV s.act0 b) n)) s

end Sys2Proof.Machine
end

