-- ==== Sys2Proof/Machine/VectorLane.lean ====
section
/-! DEFINITION. Lane operations, reductions and exact accumulation (R153-R159). -/
namespace Sys2Proof.Machine

/-! ### VLANE (R153) -/

/-- VSEL: vA where the old vD is not zero, else vB (R153). -/
def execVsel (k : KSel) (d a b : VReg) (w : EWidth) (s : State) : Host.Outcome State Fault Refusal :=
  vectorOpN (.vsel k d a b w) d (ewBits w) 2 (fun s n =>
    if lane (ewBits w) (readV s.act0 d) n = 0 then lane (ewBits w) (readV s.act0 b) n
    else lane (ewBits w) (readV s.act0 a) n) s

/-- VBCAST (R153). -/
def execVbcast (k : KSel) (d : VReg) (a : SReg) (w : EWidth) (s : State) : Host.Outcome State Fault Refusal :=
  vectorOpN (.vbcast k d a w) d (ewBits w) 2 (fun s _ => (readS s.act0 a).toNat) s

/-- `idx` of R153: an index modulo the lane count. -/
def laneIdx (w : Nat) (x : Word) : Nat := x.toNat % lanes w

/-- VEXT (R153). -/
def execVext (k : KSel) (d : SReg) (a : VReg) (b : SReg) (w : EWidth) (s : State) :
    Host.Outcome State Fault Refusal :=
  issue (.vext k d a b w) s fun t s =>
    resultS s d (BitVec.ofNat 64 (lane (ewBits w) (readV s.act0 a) (laneIdx (ewBits w) (readS s.act0 b)))) 2 t

/-- VINS (R153). -/
def execVins (k : KSel) (d : VReg) (a b : SReg) (w : EWidth) (s : State) : Host.Outcome State Fault Refusal :=
  vectorOpN (.vins k d a b w) d (ewBits w) 2 (fun s n =>
    if n = laneIdx (ewBits w) (readS s.act0 b) then (readS s.act0 a).toNat
    else lane (ewBits w) (readV s.act0 d) n) s

/-- VPERM (R24, R153). -/
def execVperm (k : KSel) (d a b : VReg) (w : EWidth) (s : State) : Host.Outcome State Fault Refusal :=
  vectorOpN (.vperm k d a b w) d (ewBits w) 3 (fun s n =>
    lane (ewBits w) (readV s.act0 a) (lane (ewBits w) (readV s.act0 b) n % lanes (ewBits w))) s

/-- VSLIDEUP (R153). -/
def execVslideup (k : KSel) (d a : VReg) (b : SReg) (w : EWidth) (s : State) : Host.Outcome State Fault Refusal :=
  vectorOpN (.vslideup k d a b w) d (ewBits w) 2 (fun s n =>
    let x := (readS s.act0 b).toNat
    if x ≤ n then lane (ewBits w) (readV s.act0 a) (n - x) else 0) s

/-- VSLIDEDN (R153). -/
def execVslidedn (k : KSel) (d a : VReg) (b : SReg) (w : EWidth) (s : State) : Host.Outcome State Fault Refusal :=
  vectorOpN (.vslidedn k d a b w) d (ewBits w) 2 (fun s n =>
    let x := (readS s.act0 b).toNat
    if n + x < lanes (ewBits w) then lane (ewBits w) (readV s.act0 a) (n + x) else 0) s

/-- VIOTA (R153). -/
def execViota (k : KSel) (d : VReg) (w : EWidth) (s : State) : Host.Outcome State Fault Refusal :=
  vectorOpN (.viota k d w) d (ewBits w) 2 (fun _ n => n) s

/-! ### VRED (R154, R155) -/

/-- The levels of a tree over the lanes of width `w`. -/
def treeDepth (w : Nat) : Nat := Nat.log2 (lanes w)

/-- A reduction to lane 0, every other lane cleared. -/
def reduceOp (i : Instr) (d : VReg) (f : State → FRes) (s : State) : Host.Outcome State Fault Refusal :=
  issue i s fun t s => withFlags s [f s] 0 fun s => resultV s d (BitVec.ofNat 2048 (f s).1) 6 t

/-- A reduction by the fixed tree (R154). -/
def treeOp (t : LaneType) (a : VReg) (f : State → Nat → Nat → FRes) (s : State) : FRes :=
  treeReduce (f s) (treeDepth (ltWidth t)) (laneList (ltWidth t) (readV s.act0 a))

/-- x + y under the slot's rounding, or modulo 2^w (R154). -/
def redAdd (t : LaneType) (r : Rnd) (s : State) (x y : Nat) : FRes :=
  if ltFloat t then fAdd (ltFmt t) (fpMode s r) x y else ((x + y) % 2 ^ ltWidth t, noFlags)

/-- VRED SUM (R154). -/
def execVredSum (k : KSel) (d a : VReg) (t : LaneType) (r : Rnd) (s : State) : Host.Outcome State Fault Refusal :=
  reduceOp (.vredSum k d a t r) d (treeOp t a (redAdd t r)) s

/-- VRED MIN (R154). -/
def execVredMin (k : KSel) (d a : VReg) (t : LaneType) (r : Rnd) (s : State) : Host.Outcome State Fault Refusal :=
  reduceOp (.vredMin k d a t r) d (treeOp t a fun _ x y =>
    if ltFloat t then fMinMax (ltFmt t) .minNum x y else (intMinMax .minNum (ltWidth t) x y, noFlags)) s

/-- VRED MAX (R154). -/
def execVredMax (k : KSel) (d a : VReg) (t : LaneType) (r : Rnd) (s : State) : Host.Outcome State Fault Refusal :=
  reduceOp (.vredMax k d a t r) d (treeOp t a fun _ x y =>
    if ltFloat t then fMinMax (ltFmt t) .maxNum x y else (intMinMax .maxNum (ltWidth t) x y, noFlags)) s

/-- VRED AND (R154). -/
def execVredAnd (k : KSel) (d a : VReg) (t : LaneType) (s : State) : Host.Outcome State Fault Refusal :=
  reduceOp (.vredAnd k d a t) d (treeOp t a fun _ x y => (Nat.land x y, noFlags)) s

/-- VRED OR (R154). -/
def execVredOr (k : KSel) (d a : VReg) (t : LaneType) (s : State) : Host.Outcome State Fault Refusal :=
  reduceOp (.vredOr k d a t) d (treeOp t a fun _ x y => (Nat.lor x y, noFlags)) s

/-- VRED XOR (R154). -/
def execVredXor (k : KSel) (d a : VReg) (t : LaneType) (s : State) : Host.Outcome State Fault Refusal :=
  reduceOp (.vredXor k d a t) d (treeOp t a fun _ x y => (Nat.xor x y, noFlags)) s

/-- VRED FSUMX: latency 8 (R24, R155). -/
def execVredFsumx (k : KSel) (d a : VReg) (t : LaneType) (r : Rnd) (s : State) : Host.Outcome State Fault Refusal :=
  issue (.vredFsumx k d a t r) s fun tag s =>
    let x := fsumx t (fpMode s r) (readV s.act0 a)
    withFlags s [x] 0 fun s => resultV s d (BitVec.ofNat 2048 x.1) 8 tag

/-- The lanes of a scan (R154). -/
def scanLanes (t : LaneType) (r : Rnd) (a : VReg) (s : State) : List FRes :=
  match laneList (ltWidth t) (readV s.act0 a) with
  | [] => []
  | x :: rest =>
    let first : FRes := if ltFloat t then (match propagateNaN (ltFmt t) [x] with | some y => y | none => (x, noFlags))
      else (x, noFlags)
    first :: scanFrom (redAdd t r s) first.1 rest

/-- VRED SCAN (R154). -/
def execVredScan (k : KSel) (d a : VReg) (t : LaneType) (r : Rnd) (s : State) : Host.Outcome State Fault Refusal :=
  issue (.vredScan k d a t r) s fun tag s =>
    let l := scanLanes t r a s
    withFlags s l 0 fun s => resultV s d (vecOfResults (ltWidth t) l) 6 tag

/-! ### VXACC (R156-R159) -/

/-- A VXACC sub-code: a container computed from the registers, latency 6. -/
def xaccOp (i : Instr) (d : VReg) (f : Act → X128) (s : State) : Host.Outcome State Fault Refusal :=
  issue i s fun t s => resultV s d (vecOfX128 (f s.act0)) 6 t

/-- VXACC.P32 (R157). -/
def execVxaccP32 (k : KSel) (d a b : VReg) (s : State) : Host.Outcome State Fault Refusal :=
  xaccOp (.vxaccP32 k d a b) d (fun x => accumProducts .f32 (x128OfVec (readV x d)) (readV x a) (readV x b)) s
/-- VXACC.S32 (R157). -/
def execVxaccS32 (k : KSel) (d a : VReg) (s : State) : Host.Outcome State Fault Refusal :=
  xaccOp (.vxaccS32 k d a) d (fun x => accumSingles .f32 (x128OfVec (readV x d)) (readV x a)) s
/-- VXACC.P64 (R157). -/
def execVxaccP64 (k : KSel) (d a b : VReg) (s : State) : Host.Outcome State Fault Refusal :=
  xaccOp (.vxaccP64 k d a b) d (fun x => accumProducts .f64 (x128OfVec (readV x d)) (readV x a) (readV x b)) s
/-- VXACC.S64 (R157). -/
def execVxaccS64 (k : KSel) (d a : VReg) (s : State) : Host.Outcome State Fault Refusal :=
  xaccOp (.vxaccS64 k d a) d (fun x => accumSingles .f64 (x128OfVec (readV x d)) (readV x a)) s
/-- XINIT (R156). -/
def execXinit (k : KSel) (d : VReg) (a : SReg) (s : State) : Host.Outcome State Fault Refusal :=
  xaccOp (.xinit k d a) d (fun x => { sum := { v := 0, sp := { } }, e := sextInt 32 (readS x a).toNat }) s
/-- XADD: XEXP on unequal grids (R158). -/
def execXadd (k : KSel) (d a b : VReg) (s : State) : Host.Outcome State Fault Refusal :=
  issue (.xadd k d a b) s fun t s =>
    let x := x128OfVec (readV s.act0 a)
    let y := x128OfVec (readV s.act0 b)
    if x.e = y.e then resultV s d (vecOfX128 (addX128 x y)) 6 t
    else slotTrap s codeXEXP 0 (wrapNat 32 x.e + 2 ^ 32 * wrapNat 32 y.e)
/-- XEXPP (R159). -/
def execXexpp (k : KSel) (d a b : VReg) (s : State) : Host.Outcome State Fault Refusal :=
  xaccOp (.xexpp k d a b) d (fun x =>
    raiseE (x128OfVec (readV x d)) (maxExpProducts (readV x a) (readV x b)) 98) s
/-- XEXPS (R159). -/
def execXexps (k : KSel) (d a : VReg) (s : State) : Host.Outcome State Fault Refusal :=
  xaccOp (.xexps k d a) d (fun x => raiseE (x128OfVec (readV x d)) (maxExpSingles (readV x a)) 99) s

end Sys2Proof.Machine
end

