-- ==== Sys2Proof/Machine/Dispatch.lean ====
section
/-! DEFINITION. One arm for each constructor of `Instr`. -/
namespace Sys2Proof.Machine

def exec (i : Instr) (s : State) : Host.Outcome State Fault Refusal :=
  match i with
  | .add k d a b => Sys2Proof.Machine.execAdd k d a b s
  | .sub k d a b => Sys2Proof.Machine.execSub k d a b s
  | .and k d a b => Sys2Proof.Machine.execAnd k d a b s
  | .or k d a b => Sys2Proof.Machine.execOr k d a b s
  | .xor k d a b => Sys2Proof.Machine.execXor k d a b s
  | .andn k d a b => Sys2Proof.Machine.execAndn k d a b s
  | .shl k d a b => Sys2Proof.Machine.execShl k d a b s
  | .shr k d a b => Sys2Proof.Machine.execShr k d a b s
  | .sar k d a b => Sys2Proof.Machine.execSar k d a b s
  | .rotr k d a b => Sys2Proof.Machine.execRotr k d a b s
  | .min k d a b => Sys2Proof.Machine.execMin k d a b s
  | .max k d a b => Sys2Proof.Machine.execMax k d a b s
  | .minn k d a b => Sys2Proof.Machine.execMinn k d a b s
  | .maxn k d a b => Sys2Proof.Machine.execMaxn k d a b s
  | .seq k d a b => Sys2Proof.Machine.execSeq k d a b s
  | .sne k d a b => Sys2Proof.Machine.execSne k d a b s
  | .slt k d a b => Sys2Proof.Machine.execSlt k d a b s
  | .sltn k d a b => Sys2Proof.Machine.execSltn k d a b s
  | .sel k d a b => Sys2Proof.Machine.execSel k d a b s
  | .clz k d a => Sys2Proof.Machine.execClz k d a s
  | .ctz k d a => Sys2Proof.Machine.execCtz k d a s
  | .popc k d a => Sys2Proof.Machine.execPopc k d a s
  | .padd k d a b => Sys2Proof.Machine.execPadd k d a b s
  | .mul k d a b => Sys2Proof.Machine.execMul k d a b s
  | .mulh k d a b => Sys2Proof.Machine.execMulh k d a b s
  | .mulhn k d a b => Sys2Proof.Machine.execMulhn k d a b s
  | .div k d a b => Sys2Proof.Machine.execDiv k d a b s
  | .divn k d a b => Sys2Proof.Machine.execDivn k d a b s
  | .rem k d a b => Sys2Proof.Machine.execRem k d a b s
  | .remn k d a b => Sys2Proof.Machine.execRemn k d a b s
  | .addi k d a imm => Sys2Proof.Machine.execAddi k d a imm s
  | .andi k d a imm => Sys2Proof.Machine.execAndi k d a imm s
  | .ori k d a imm => Sys2Proof.Machine.execOri k d a imm s
  | .xori k d a imm => Sys2Proof.Machine.execXori k d a imm s
  | .shli k d a n => Sys2Proof.Machine.execShli k d a n s
  | .shri k d a n => Sys2Proof.Machine.execShri k d a n s
  | .sari k d a n => Sys2Proof.Machine.execSari k d a n s
  | .slti k d a imm => Sys2Proof.Machine.execSlti k d a imm s
  | .sltni k d a imm => Sys2Proof.Machine.execSltni k d a imm s
  | .li k d imm => Sys2Proof.Machine.execLi k d imm s
  | .csrr k d csr => Sys2Proof.Machine.execCsrr k d csr s
  | .csrw k a csr => Sys2Proof.Machine.execCsrw k a csr s
  | .csrs k a csr => Sys2Proof.Machine.execCsrs k a csr s
  | .csrc k a csr => Sys2Proof.Machine.execCsrc k a csr s
  | .br k disp => Sys2Proof.Machine.execBr k disp s
  | .jal k disp => Sys2Proof.Machine.execJal k disp s
  | .jalr k d a imm => Sys2Proof.Machine.execJalr k d a imm s
  | .loop k a len => Sys2Proof.Machine.execLoop k a len s
  | .loopi k cnt len => Sys2Proof.Machine.execLoopi k cnt len s
  | .lidx k d level => Sys2Proof.Machine.execLidx k d level s
  | .lbrk k => Sys2Proof.Machine.execLbrk k s
  | .lnext k => Sys2Proof.Machine.execLnext k s
  | .ldepth k d => Sys2Proof.Machine.execLdepth k d s
  | .nop k => Sys2Proof.Machine.execNop k s
  | .yield k => Sys2Proof.Machine.execYield k s
  | .endAct k => Sys2Proof.Machine.execEndAct k s
  | .brk k => Sys2Proof.Machine.execBrk k s
  | .waitGen k a b => Sys2Proof.Machine.execWaitGen k a b s
  | .waitRidge k => Sys2Proof.Machine.execWaitRidge k s
  | .waitEq k a b => Sys2Proof.Machine.execWaitEq k a b s
  | .waitGe k a b => Sys2Proof.Machine.execWaitGe k a b s
  | .waitFeed k a => Sys2Proof.Machine.execWaitFeed k a s
  | .trap k imm => Sys2Proof.Machine.execTrap k imm s
  | .clkon k d a => Sys2Proof.Machine.execClkon k d a s
  | .clkoff k d a => Sys2Proof.Machine.execClkoff k d a s
  | .clksplit k d a => Sys2Proof.Machine.execClksplit k d a s
  | .clkq k d a => Sys2Proof.Machine.execClkq k d a s
  | .clkundef k d => Sys2Proof.Machine.execClkundef k d s
  | .whenScalar k d a => Sys2Proof.Machine.execWhenScalar k d a s
  | .whenVector k d a => Sys2Proof.Machine.execWhenVector k d a s
  | .currScalar k d a => Sys2Proof.Machine.execCurrScalar k d a s
  | .currVector k d a => Sys2Proof.Machine.execCurrVector k d a s
  | .mergeScalar k d a b => Sys2Proof.Machine.execMergeScalar k d a b s
  | .mergeVector k d a b => Sys2Proof.Machine.execMergeVector k d a b s
  | .vadd k d a b t m => Sys2Proof.Machine.execVadd k d a b t m s
  | .vsub k d a b t m => Sys2Proof.Machine.execVsub k d a b t m s
  | .vmul k d a b t m => Sys2Proof.Machine.execVmul k d a b t m s
  | .vfma k d a b t m => Sys2Proof.Machine.execVfma k d a b t m s
  | .vfms k d a b t m => Sys2Proof.Machine.execVfms k d a b t m s
  | .vfnma k d a b t m => Sys2Proof.Machine.execVfnma k d a b t m s
  | .vdiv k d a b t m => Sys2Proof.Machine.execVdiv k d a b t m s
  | .vsqrt k d a t m => Sys2Proof.Machine.execVsqrt k d a t m s
  | .vminmax k d a b t m => Sys2Proof.Machine.execVminmax k d a b t m s
  | .vcmp k d a b t c => Sys2Proof.Machine.execVcmp k d a b t c s
  | .vcvt k d a dst src r => Sys2Proof.Machine.execVcvt k d a dst src r s
  | .vbitAnd k d a b => Sys2Proof.Machine.execVbitAnd k d a b s
  | .vbitOr k d a b => Sys2Proof.Machine.execVbitOr k d a b s
  | .vbitXor k d a b => Sys2Proof.Machine.execVbitXor k d a b s
  | .vbitAndn k d a b => Sys2Proof.Machine.execVbitAndn k d a b s
  | .vbitNot k d a => Sys2Proof.Machine.execVbitNot k d a s
  | .vshiftShl k d a b t => Sys2Proof.Machine.execVshiftShl k d a b t s
  | .vshiftShr k d a b t => Sys2Proof.Machine.execVshiftShr k d a b t s
  | .vshiftSar k d a b t => Sys2Proof.Machine.execVshiftSar k d a b t s
  | .vshiftRotr k d a b t => Sys2Proof.Machine.execVshiftRotr k d a b t s
  | .vunaryAbs k d a t => Sys2Proof.Machine.execVunaryAbs k d a t s
  | .vunaryNeg k d a t => Sys2Proof.Machine.execVunaryNeg k d a t s
  | .vunaryClass k d a t => Sys2Proof.Machine.execVunaryClass k d a t s
  | .vunaryGetexp k d a t => Sys2Proof.Machine.execVunaryGetexp k d a t s
  | .vunaryClz k d a t => Sys2Proof.Machine.execVunaryClz k d a t s
  | .vunaryPopc k d a t => Sys2Proof.Machine.execVunaryPopc k d a t s
  | .vunaryRcpe k d a t => Sys2Proof.Machine.execVunaryRcpe k d a t s
  | .vunaryRsqe k d a t => Sys2Proof.Machine.execVunaryRsqe k d a t s
  | .vscalb k d a b t m => Sys2Proof.Machine.execVscalb k d a b t m s
  | .vsel k d a b w => Sys2Proof.Machine.execVsel k d a b w s
  | .vbcast k d a w => Sys2Proof.Machine.execVbcast k d a w s
  | .vext k d a b w => Sys2Proof.Machine.execVext k d a b w s
  | .vins k d a b w => Sys2Proof.Machine.execVins k d a b w s
  | .vperm k d a b w => Sys2Proof.Machine.execVperm k d a b w s
  | .vslideup k d a b w => Sys2Proof.Machine.execVslideup k d a b w s
  | .vslidedn k d a b w => Sys2Proof.Machine.execVslidedn k d a b w s
  | .viota k d w => Sys2Proof.Machine.execViota k d w s
  | .vredSum k d a t r => Sys2Proof.Machine.execVredSum k d a t r s
  | .vredMin k d a t r => Sys2Proof.Machine.execVredMin k d a t r s
  | .vredMax k d a t r => Sys2Proof.Machine.execVredMax k d a t r s
  | .vredAnd k d a t => Sys2Proof.Machine.execVredAnd k d a t s
  | .vredOr k d a t => Sys2Proof.Machine.execVredOr k d a t s
  | .vredXor k d a t => Sys2Proof.Machine.execVredXor k d a t s
  | .vredFsumx k d a t r => Sys2Proof.Machine.execVredFsumx k d a t r s
  | .vredScan k d a t r => Sys2Proof.Machine.execVredScan k d a t r s
  | .vxaccP32 k d a b => Sys2Proof.Machine.execVxaccP32 k d a b s
  | .vxaccS32 k d a => Sys2Proof.Machine.execVxaccS32 k d a s
  | .vxaccP64 k d a b => Sys2Proof.Machine.execVxaccP64 k d a b s
  | .vxaccS64 k d a => Sys2Proof.Machine.execVxaccS64 k d a s
  | .xinit k d a => Sys2Proof.Machine.execXinit k d a s
  | .xadd k d a b => Sys2Proof.Machine.execXadd k d a b s
  | .xexpp k d a b => Sys2Proof.Machine.execXexpp k d a b s
  | .xexps k d a => Sys2Proof.Machine.execXexps k d a s
  | .spawn k d a b => Sys2Proof.Machine.execSpawn k d a b s
  | .spawnc k d a b => Sys2Proof.Machine.execSpawnc k d a b s
  | .resolve k a b => Sys2Proof.Machine.execResolve k a b s
  | .resolven k a b => Sys2Proof.Machine.execResolven k a b s
  | .launch k d a b => Sys2Proof.Machine.execLaunch k d a b s
  | .ld k d a w off => Sys2Proof.Machine.execLd k d a w off s
  | .st k d a w off => Sys2Proof.Machine.execSt k d a w off s
  | .vld k d a off => Sys2Proof.Machine.execVld k d a off s
  | .vldFeedPop k d a => Sys2Proof.Machine.execVldFeedPop k d a s
  | .vst k d a off => Sys2Proof.Machine.execVst k d a off s
  | .vstFeedPush k d a => Sys2Proof.Machine.execVstFeedPush k d a s
  | .fbyScalar k d a b => Sys2Proof.Machine.execFbyScalar k d a b s
  | .fbyVector k d a b => Sys2Proof.Machine.execFbyVector k d a b s
  | .vlds k d a b w => Sys2Proof.Machine.execVlds k d a b w s
  | .vsts k d a b w => Sys2Proof.Machine.execVsts k d a b w s
  | .vgath k d a b w => Sys2Proof.Machine.execVgath k d a b w s
  | .vscat k d a b w => Sys2Proof.Machine.execVscat k d a b w s
  | .ldt k d a c w => Sys2Proof.Machine.execLdt k d a c w s
  | .atomAdd k a b w => Sys2Proof.Machine.execAtomAdd k a b w s
  | .atomMin k a b w => Sys2Proof.Machine.execAtomMin k a b w s
  | .atomMax k a b w => Sys2Proof.Machine.execAtomMax k a b w s
  | .atomMinn k a b w => Sys2Proof.Machine.execAtomMinn k a b w s
  | .atomMaxn k a b w => Sys2Proof.Machine.execAtomMaxn k a b w s
  | .atomAnd k a b w => Sys2Proof.Machine.execAtomAnd k a b w s
  | .atomOr k a b w => Sys2Proof.Machine.execAtomOr k a b w s
  | .atomXor k a b w => Sys2Proof.Machine.execAtomXor k a b w s
  | .xadd32 k a b => Sys2Proof.Machine.execXadd32 k a b s
  | .fetchadd k d a b w => Sys2Proof.Machine.execFetchadd k d a b w s
  | .swap k d a b w => Sys2Proof.Machine.execSwap k d a b w s
  | .cas k d a b w => Sys2Proof.Machine.execCas k d a b w s
  | .fetchmin k d a b w => Sys2Proof.Machine.execFetchmin k d a b w s
  | .fetchmax k d a b w => Sys2Proof.Machine.execFetchmax k d a b w s
  | .ldacq k d a c => Sys2Proof.Machine.execLdacq k d a c s
  | .strel k d a c => Sys2Proof.Machine.execStrel k d a c s
  | .fence k c => Sys2Proof.Machine.execFence k c s
  | .cpy k a b => Sys2Proof.Machine.execCpy k a b s
  | .cpysum k d a b => Sys2Proof.Machine.execCpysum k d a b s
  | .coll k d a b => Sys2Proof.Machine.execColl k d a b s
  | .pref k a b => Sys2Proof.Machine.execPref k a b s
  | .fbind k d a => Sys2Proof.Machine.execFbind k d a s
  | .funbind k d => Sys2Proof.Machine.execFunbind k d s
  | .fflush k d => Sys2Proof.Machine.execFflush k d s
  | .fstat k d a => Sys2Proof.Machine.execFstat k d a s
  | .mmaW0 k d a b => Sys2Proof.Machine.execMmaW0 k d a b s
  | .mmaW1 k d a b => Sys2Proof.Machine.execMmaW1 k d a b s
  | .mmasW0 k d a b => Sys2Proof.Machine.execMmasW0 k d a b s
  | .mmasW1 k d a b => Sys2Proof.Machine.execMmasW1 k d a b s
  | .wldW0 k a b => Sys2Proof.Machine.execWldW0 k a b s
  | .wldW1 k a b => Sys2Proof.Machine.execWldW1 k a b s
  | .scl k a => Sys2Proof.Machine.execScl k a s
  | .acol k d a b => Sys2Proof.Machine.execAcol k d a b s
  | .azero k d a => Sys2Proof.Machine.execAzero k d a s
  | .anorm k d a => Sys2Proof.Machine.execAnorm k d a s
  | .awrite k d a b => Sys2Proof.Machine.execAwrite k d a b s
  | .awriteAdd k d a b => Sys2Proof.Machine.execAwriteAdd k d a b s
  | .aexp k d a => Sys2Proof.Machine.execAexp k d a s
  | .astat k d a => Sys2Proof.Machine.execAstat k d a s
  | .aread k d a b dst => Sys2Proof.Machine.execAread k d a b dst s
  | .rft k a b => Sys2Proof.Machine.execRft k a b s
  | .kill k a b => Sys2Proof.Machine.execKill k a b s
  | .snapr k d a b => Sys2Proof.Machine.execSnapr k d a b s
  | .snapw k d a b => Sys2Proof.Machine.execSnapw k d a b s
  | .ctxsv k d a b => Sys2Proof.Machine.execCtxsv k d a b s
  | .ctxld k d a b => Sys2Proof.Machine.execCtxld k d a b s
  | .ttinv k a b => Sys2Proof.Machine.execTtinv k a b s
  | .halt k => Sys2Proof.Machine.execHalt k s
  | .literalExtension payload => Sys2Proof.Machine.execLiteralExtension payload s
  | .preempt core slot => Sys2Proof.Machine.execPreempt core slot s
  | .fixedLatencyResultLands who => Sys2Proof.Machine.execFixedLatencyResultLands who s
  | .interlockedResultLands who n => Sys2Proof.Machine.execInterlockedResultLands who n s
  | .timedLoadLands who => Sys2Proof.Machine.execTimedLoadLands who s
  | .timedLoadDataArrival who => Sys2Proof.Machine.execTimedLoadDataArrival who s
  | .activationRetire run who => Sys2Proof.Machine.execActivationRetire run who s
  | .heldEffectRelease run who => Sys2Proof.Machine.execHeldEffectRelease run who s
  | .instantAdmission run => Sys2Proof.Machine.execInstantAdmission run s
  | .instantComplete run inst => Sys2Proof.Machine.execInstantComplete run inst s
  | .distributorPlacement die => Sys2Proof.Machine.execDistributorPlacement die s
  | .nonSpeculativeWaitExpiry die => Sys2Proof.Machine.execNonSpeculativeWaitExpiry die s
  | .preemptionLands core slot => Sys2Proof.Machine.execPreemptionLands core slot s
  | .forcedPreemptionPoint core slot => Sys2Proof.Machine.execForcedPreemptionPoint core slot s
  | .corePowerGate core => Sys2Proof.Machine.execCorePowerGate core s
  | .coreWakeComplete core => Sys2Proof.Machine.execCoreWakeComplete core s
  | .scratchBankCleared core bank => Sys2Proof.Machine.execScratchBankCleared core bank s
  | .stewardWake core => Sys2Proof.Machine.execStewardWake core s
  | .cellRequestArrival n => Sys2Proof.Machine.execCellRequestArrival n s
  | .repairNotice n => Sys2Proof.Machine.execRepairNotice n s
  | .cellFold n => Sys2Proof.Machine.execCellFold n s
  | .atomrValueDelivery run who => Sys2Proof.Machine.execAtomrValueDelivery run who s
  | .liveStorePerformed n => Sys2Proof.Machine.execLiveStorePerformed n s
  | .feedFill who e => Sys2Proof.Machine.execFeedFill who e s
  | .feedDrain who e => Sys2Proof.Machine.execFeedDrain who e s
  | .copyEngineElement die n => Sys2Proof.Machine.execCopyEngineElement die n s
  | .arrayRowEntry core => Sys2Proof.Machine.execArrayRowEntry core s
  | .weightEntry core => Sys2Proof.Machine.execWeightEntry core s
  | .bankReady core => Sys2Proof.Machine.execBankReady core s
  | .busyBitClear core tile row => Sys2Proof.Machine.execBusyBitClear core tile row s
  | .start queue => Sys2Proof.Machine.execStart queue s
  | .grant queue => Sys2Proof.Machine.execGrant queue s
  | .fencePacket queue => Sys2Proof.Machine.execFencePacket queue s
  | .signal queue => Sys2Proof.Machine.execSignal queue s
  | .stop queue => Sys2Proof.Machine.execStop queue s
  | .marker queue => Sys2Proof.Machine.execMarker queue s
  | .remotePush device tag handle packet => Sys2Proof.Machine.execRemotePush device tag handle packet s
  | .remotePushOutcome n code => Sys2Proof.Machine.execRemotePushOutcome n code s
  | .queueResidencyChange queue resident => Sys2Proof.Machine.execQueueResidencyChange queue resident s
  | .imageLoad req image => Sys2Proof.Machine.execImageLoad req image s
  | .firmwareImageLoad req fw => Sys2Proof.Machine.execFirmwareImageLoad req fw s
  | .queuePush req handle packet => Sys2Proof.Machine.execQueuePush req handle packet s
  | .queueCreate req queue priority capacity => Sys2Proof.Machine.execQueueCreate req queue priority capacity s
  | .queueDestroy req handle => Sys2Proof.Machine.execQueueDestroy req handle s
  | .map req run tensor tile entry => Sys2Proof.Machine.execMap req run tensor tile entry s
  | .memRead req run ptr len => Sys2Proof.Machine.execMemRead req run ptr len s
  | .memWrite req run ptr bytes => Sys2Proof.Machine.execMemWrite req run ptr bytes s
  | .keySet req slot key0 key1 => Sys2Proof.Machine.execKeySet req slot key0 key1 s
  | .collectiveMatch n peer => Sys2Proof.Machine.execCollectiveMatch n peer s
  | .collectiveComplete n => Sys2Proof.Machine.execCollectiveComplete n s
  | .collectiveFailure n cause code => Sys2Proof.Machine.execCollectiveFailure n cause code s
  | .thermalExclusion core temp => Sys2Proof.Machine.execThermalExclusion core temp s
  | .thermalReadmission core temp => Sys2Proof.Machine.execThermalReadmission core temp s
  | .woushFlitResend port => Sys2Proof.Machine.execWoushFlitResend port s
  | .woushPortDown port => Sys2Proof.Machine.execWoushPortDown port s
  | .softErrorCorrection addr => Sys2Proof.Machine.execSoftErrorCorrection addr s
  | .scrubUncorrectable addr => Sys2Proof.Machine.execScrubUncorrectable addr s
  | .warmReset req device => Sys2Proof.Machine.execWarmReset req device s
  | .coldReset req device => Sys2Proof.Machine.execColdReset req device s
  | .attest req nonce => Sys2Proof.Machine.execAttest req nonce s
  | .resync req => Sys2Proof.Machine.execResync req s
  | .loopPassEnd => Sys2Proof.Machine.execLoopPassEnd s
  | .handlerActivationStart => Sys2Proof.Machine.execHandlerActivationStart s
  | .powerOnBoot => Sys2Proof.Machine.execPowerOnBoot s
  | .serviceStartTimeout => Sys2Proof.Machine.execServiceStartTimeout s
  | .seamFlitResend => Sys2Proof.Machine.execSeamFlitResend s
  | .budgetPeriod => Sys2Proof.Machine.execBudgetPeriod s

end Sys2Proof.Machine
end

