-- ==== Sys2Proof/Machine/Issue.lean ====
section
/-! DEFINITION. The issue of a bundle (R21-R26, R56-R61, R104-R119, R193, R370-R372, R385-R387) and the choice of what
happens next. -/
namespace Sys2Proof.Machine

/-! ### Decoding a bundle (R57-R61) -/

/-- The slot mask of slot numbers (R61). -/
def maskOf (l : List Nat) : Nat := l.foldl (fun m i => m + 2 ^ i) 0

/-- The lowest slot of a mask (R61). -/
def lowSlot (mask : Nat) : Nat := ((List.range 8).find? fun i => mask.testBit i).getD 0

/-- A trap of the whole bundle: its mask, the lowest slot's word and a reason (R61). -/
def bundleTrap (s : State) (code reason mask : Nat) : State :=
  let low := lowSlot mask
  takeTrap s (causeOf code mask low) 0 ((s.iss.words.getD low 0).toNat + reason * 2 ^ 32)

/-- A slot's instruction; `none` where its word is undefined or a steward slot has no such instruction (R60 step 2,
R426). -/
def slotInstr (a : Act) (w : BitVec 32) : Option Instr :=
  match decodeWord w with
  | some x => if undefHere a x.instr then none else some x.instr
  | none => none

/-- Whether a slot is an X slot (R56). -/
def isExt : Instr → Bool
  | .literalExtension _ => true
  | _ => false

/-- The X slots of misused runs: `n` is the number of the first slot, `run` the X slots just before it (R57). -/
def misusedFrom : List Instr → Nat → List Nat → List Nat
  | [], _, run => run
  | i :: rest, n, run =>
    if isExt i then misusedFrom rest (n + 1) (run ++ [n])
    else (if run.isEmpty || (decide (run.length ≤ 2) && acceptsExt i) then [] else run) ++ misusedFrom rest (n + 1) []

/-- What a slot writes, s0 left out (R58). -/
def resourcesOf (i : Instr) : List Res := (writesOf i).filter fun r => r != .s 0

/-- The second feed of an MMAS (R350). -/
def secondFeed : Instr → Option EReg
  | .mmasW0 _ _ a _ => some (a + 1)
  | .mmasW1 _ _ a _ => some (a + 1)
  | _ => none

/-- Whether a slot binds a feed. -/
def bindsFeed (e : EReg) : Instr → Bool
  | .fbind _ d _ => d = e
  | _ => false

/-- Whether two slots conflict (R58, R350). -/
def clash (i j : Instr) : Bool :=
  ((resourcesOf i).any fun r => (resourcesOf j).contains r)
    || (match secondFeed i with | some e => bindsFeed e j | none => false)
    || (match secondFeed j with | some e => bindsFeed e i | none => false)

/-- The slots in any conflict (R58, R60). -/
def clashing (l : List Instr) : List Nat :=
  (List.range l.length).filter fun i => (List.range l.length).any fun j =>
    i != j && match l[i]?, l[j]? with
      | some x, some y => clash x y
      | _, _ => false

/-- The slots a unit kind offers in a bundle (R59). -/
def unitLimit : UnitKind → Nat
  | .salu => 2 | .smul => 1 | .vector => 2 | .vdiv => 1 | .memory => 2
  | .matrix => 1 | .control => 1 | .clock => 1 | .engine => 1 | .none => 8

/-- The slots of over-subscribed unit kinds (R59, R60). -/
def crowded (l : List Instr) : List Nat :=
  (List.range l.length).filter fun i => match l[i]? with
    | some x => decide (unitLimit (unitOf x) < (l.filter fun y => unitOf y = unitOf x).length)
    | none => false

/-- The first failing step of R60 after step 1: code, reason, mask. -/
def decodeFault (slots : List (Option Instr)) : Option (Nat × Nat × Nat) :=
  let undef := (List.range slots.length).filter fun i => slots[i]? = some none
  let l := slots.filterMap id
  if !undef.isEmpty then some (codeUNDEF, 0, maskOf undef)
  else if !(misusedFrom l 0 []).isEmpty then some (codeILLB, 2, maskOf (misusedFrom l 0 []))
  else if !(clashing l).isEmpty then some (codeILLB, 3, maskOf (clashing l))
  else if !(crowded l).isEmpty then some (codeILLB, 4, maskOf (crowded l))
  else none

/-! ### Presence, deferred traps, the in-flight limit (R26, R371, R372) -/

/-- Whether a slot's clock is present (R16, R30). -/
def presentOf (s : State) (i : Instr) : Bool :=
  match kOf i with
  | .clk n => (clockOfAct s.act0 n).defd && (clockOfAct s.act0 n).pres
  | q =>
    let x := commonTag s (readsOf i)
    (if h : x < 14 then s.act0.clocks[x].pres else false) && qualifies s.act0 q

/-- Operations whose results are interlocked (R26, R397-R399). -/
def interlocked : Instr → Bool
  | .ld .. | .vld .. | .vldFeedPop .. | .fbyScalar .. | .fbyVector .. | .vlds .. | .vgath .. | .fetchadd .. | .swap ..
  | .cas .. | .fetchmin .. | .fetchmax .. | .ldacq .. | .snapr .. | .ctxsv .. | .ctxld .. => true
  | _ => false

/-- Whether a slot has a fixed-latency result (R24, R371). -/
def hasResult (i : Instr) : Bool :=
  !interlocked i && (writesOf i).any fun r => match r with
    | .s _ | .v _ | .latches => true
    | _ => false

/-- The present slots with fixed-latency results, when they would raise the count above 48 (R371). -/
def overLimit (s : State) (l : List Instr) : List Nat :=
  let slots := (List.range l.length).filter fun i => match l[i]? with
    | some x => presentOf s x && hasResult x
    | none => false
  if 48 < s.act0.inflight.length + slots.length then slots else []

/-- ILLB with reason 5 (R371). -/
def limitTrap (s : State) (slots : List Nat) : State :=
  let m := maskOf slots
  takeTrap s (causeOf codeILLB m (lowSlot m)) 0 (5 * 2 ^ 32)

/-- The first structural trap, slot by slot (R370 step 5). -/
def firstStructural (s : State) : List Instr → Nat → Option (Nat × Nat × Nat)
  | [], _ => none
  | i :: rest, n =>
    match structural { s with iss := { s.iss with slot := n } } i with
    | .trap c x => some (n, c, x)
    | .go _ _ => firstStructural s rest (n + 1)

/-- Whether a present slot reads a register whose value holds an uncorrectable error (R384). -/
def readsBad (s : State) (x : Instr) : Bool :=
  presentOf s x && readsBadReg s.act0 x

/-- MEMX of a register that the slot in issue reads: a register has no address, so TADDR is 0 (R374, R384, log 58). -/
def regTrap (s : State) : State := slotTrap s codeMEMX 0 5

/-- The bundle stalls on an awaited register; on one that waits under R256 its core may switch (R26, R256). -/
def stallAwaited (s : State) (present : List Instr) : State :=
  let regs := s.act0.pend.filterMap fun p => match p.wait with | .atomr _ _ => some p.dest | _ => none
  if present.any (fun i => (touches i).any fun d => d != .s 0 && regs.contains d) then stallSwitch s else stall s

/-! ### The slots of a bundle -/

/-- Whether the slot in issue of activation `k` has met a trap. -/
def slotTrapped (k : ActKey) (s : State) : Bool := s.iss.status = .trapped && s.act.key = k && s.act.frozen.isSome

/-- One slot of a bundle executes. A register with an uncorrectable error that it reads is MEMX, the highest code, so that every other
trap of the slot comes first (R370 step 6, R384). -/
def runSlot (i : Instr) (n : Nat) (s : State) : Host.Outcome State Fault Refusal :=
  let t := { s with iss := { s.iss with slot := n } }
  match exec i t with
  | .next u => .next (if readsBad t i && !slotTrapped t.act.key u then regTrap t else u)
  | .fault f => .fault f
  | .refused r => .refused r

/-- Execute the slots in ascending order until one traps or stalls; an extension serves the next slot only (R56). -/
def runSlots : List Instr → Nat → State → Host.Outcome State Fault Refusal
  | [], _, s => .next s
  | i :: rest, n, s =>
    match runSlot i n s with
    | .next t =>
      if t.iss.status = .running then
        runSlots rest (n + 1) (if isExt i then t else { t with iss := { t.iss with ext := [] } })
      else .next t
    | .fault f => .fault f
    | .refused r => .refused r

/-- The checks of R370 from decoding on, then the slots. -/
def issueWords (ws : List (BitVec 32)) (s0 : State) : Host.Outcome State Fault Refusal :=
  let s := { s0 with iss := { Iss.idle with words := ws } }
  let slots := ws.map (slotInstr s.act0)
  match decodeFault slots with
  | some f => .next (bundleTrap s f.1 f.2.1 f.2.2)
  | none =>
    let l := slots.filterMap id
    let present := l.filter (presentOf s)
    match dueDeferred s.act0 present with
    | some r => .next (takeDeferred s r (s.act0.deferred.erase r))
    | none =>
      let excess := overLimit s l
      if !excess.isEmpty then .next (limitTrap s excess)
      else match firstStructural s l 0 with
        | some f => .next (slotTrap { s with iss := { s.iss with slot := f.1 } } f.2.1 0 f.2.2)
        | none =>
          if present.any (awaited s.act0) then .next (stallAwaited s present) else runSlots l 0 s

/-- MEMX of an instruction fetch (R384, R374). -/
def fetchTrap (s : State) (slots : List Nat) : State :=
  let m := maskOf slots
  takeTrap s (causeOf codeMEMX m (lowSlot m)) s.act0.pc 4

/-- The issue of the bundle at the pc, `dev0` and `act0` being the state before it (R21, R108, R370). -/
def issueBundle (s : State) : Host.Outcome State Fault Refusal :=
  let code := codeOf s s.act0
  let bad := badSlots s.dev (runOfKey s.act0.key) s.act0.pc
  match fetchBundle code s.act0.pc with
  | .off => .next (takeTrap s (causeOf codeWIN 0 0) code.length 0)
  | .open_ ws =>
    .next (if !(bad 8).isEmpty then fetchTrap s (bad 8)
      else bundleTrap { s with iss := { Iss.idle with words := ws } } codeILLB 1 0xFF)
  | .ok ws => if !(bad ws.length).isEmpty then .next (fetchTrap s (bad ws.length)) else issueWords ws s

/-! ### Commit -/

/-- Core cycles pass; at the end of the first the queue agent decides what has reached it (R221). -/
def tick (n : Nat) (s : State) : State :=
  let t := decidePushes s
  { t with dev := { t.dev with cycle := t.dev.cycle + n } }

/-- A trapped activation, its handlers and the handlers still to start for its stamp share one SEQ counter (R380, R381). -/
def shareSeq (s : State) : State :=
  let a := s.act
  { s with dev := { s.dev with
    others := s.dev.others.map fun x => if kin x.key a.key then { x with seq := a.seq } else x
    orphanTraps := s.dev.orphanTraps.map fun o =>
      if stampOfKey a.key = some (o.run, o.stamp) then { o with seq := a.seq } else o } }

/-- What the control slot decided takes effect: the new position, loop stack and boundary mark, and the advance cycles
spent (R104-R115). -/
def applyCtl (code : List Byte) (next : Nat) (last : Bool) (a : Act) : Ctl → Nat × Act
  | .jump t => (3, { a with pc := t })
  | .pushLevel l => (1, { a with loops := l :: a.loops, pc := l.start })
  | .skipBody t => (3, { a with pc := t })
  | .popLevel t => (3, { a with loops := a.loops.drop 1, pc := t })
  | .endPass => (3, { endPassOf code a with boundary := true })
  | .yield => (1, { a with pc := next, passEnd := last, boundary := true })
  | _ => (1, { a with pc := next, passEnd := last })

/-- What a committed END or HALT leaves of the slot (R116, R193, R401): a handler activation is gone once its live writes are
performed, an ordinary one waits to retire. -/
def applyEnd (s : State) : Ctl → State
  | .yield => yieldCore s s.act
  | .halt => yieldCore { s with act := { s.act with status := .halted } } s.act
  | .endAct =>
    let k := s.act.key
    dropEndedHandler (yieldCore (endNow s s.act) s.act) k
  | _ => s

/-- The bundle commits (R23, R38, R84). -/
def commit (s : State) : State :=
  let code := codeOf s s.act0
  let a := { s.act with
    fpc := fpcOrFlags s.act.fpc s.iss.flags, boundary := false
    sinceRequest := if s.act.preempt then s.act.sinceRequest + 1 else s.act.sinceRequest }
  let r := applyCtl code (nextBundle s) (endsBody code s.act0 s.act0.pc) a s.iss.ctl
  let t := tick r.1 (shareSeq (settleCsrs { s with act := { r.2 with adv := a.adv + r.1 } }))
  applyEnd t s.iss.ctl

/-- After the issue: the bundle commits, or a core cycle that is no advance cycle passes (R22, R193). -/
def finish (s : State) : State :=
  let t := match s.iss.status with
    | .running => commit s
    | .switched => tick 1 (yieldCore { s with act := { s.act with stalledAtPoint := true } } s.act)
    | _ => tick 1 s
  { t with iss := Iss.idle }

/-! ### Choosing a slot (R191, R193) -/

/-- Every due result lands, in order (R24, R25). -/
def landAll : Nat → State → State
  | 0, s => s
  | n + 1, s =>
    match landable s.act with
    | some f => landAll n (landResult s s.act f)
    | none => s

/-- An end of pass that is due takes place before the next bundle (R29). -/
def endDuePass (s : State) : State :=
  if s.act.passEnd then { s with act := { endPassOf (codeOf s s.act) s.act with boundary := true } } else s

/-- Keep the state before the bundle. -/
def beginIssue (s : State) : State := { s with dev0 := s.dev, act0 := s.act, iss := Iss.idle }

/-- Whether a bundle that was refused stays stalled: until its loads would be settled (R255, R257), or until the ridge has moved
(R263). -/
def heldBack (s : State) (a : Act) : Bool :=
  match a.hold with
  | none => false
  | some .settled => !atRidge s a || (List.range 32).any fun v => copyBehind s v (runNum a)
  | some (.ridge r) => (runOfKey a.key).bind (ridge s) = r

/-- An activation's next core cycle: due results land, a pending request lands at a boundary that is a point, else its bundle
is examined and issues; one that stalls at a point of R385 parks when a request was pending (R385, R403, R405). -/
def issueAct (k : ActKey) (s0 : State) : Host.Outcome State Fault Refusal :=
  let s1 := focusOn s0 k
  let s2 := { s1 with act := { s1.act with status := .ready } }
  let s3 := landAll s2.act.inflight.length s2
  if frozenByTimedLoad s3.act then .next (tick 1 s3)
  else
    let s := endDuePass s3
    if s.act.preempt && (s.act.boundary || forcedPoint s.act) && canHandle s s.act then .next (tick 1 (parkAct s s.act))
    else if heldBack s s.act then .next (tick 1 s)
    else match issueBundle (beginIssue { s with act := { s.act with hold := none, stalledAtPoint := false } }) with
      | .next t =>
        let u := finish t
        .next (if s.act.preempt && t.iss.status = .switched && canHandle u u.act then parkAct u u.act else u)
      | .fault f => .fault f
      | .refused r => .refused r

/-- The ready slots of a core; cores 32-35 are the stewards. -/
def readyActs (s : State) (core : Nat) : List Act := (acts s).filter fun a => onCore core a && isReady s a

/-- The slot that runs on a core. -/
def runningSlot (d : Dev) (core : Nat) : Option Nat :=
  if core < 32 then (getCore d core).current
  else if h : core - 32 < 4 then d.stewards[core - 32] else none

/-- The running activation of a core, while it can issue. -/
def runningAct (s : State) (core : Nat) : Option Act :=
  ((runningSlot s.dev core).bind fun k => slotAct s core k).filter fun a => a.status = .ready

/-- The slot of an activation; 8 for none. -/
def slotOf (a : Act) : Nat := match a.place with | some p => p.slot | none => 8

/-- The lowest slot of a list. -/
def lowestAct : List Act → Option Act
  | [] => none
  | a :: rest => match lowestAct rest with
    | some b => if slotOf b < slotOf a then some b else some a
    | none => some a

/-- A compute core switches to the slot the keys of R191 choose; a steward core, whose slots belong to no run, to its
lowest ready one. -/
def switchCore (s : State) (core : Nat) : Option (ActKey × State) :=
  let l := readyActs s core
  if core < 32 then
    let c := getCore s.dev core
    (chooseAct s c.pointers l).map fun a =>
      (a.key, { s with dev := putCore s.dev core { c with current := some (slotOf a), pointers := movePointer s c.pointers a l } })
  else if h : core - 32 < 4 then
    (lowestAct l).map fun a => (a.key, { s with dev := { s.dev with stewards := s.dev.stewards.set (core - 32) (some (slotOf a)) h } })
  else none

/-- A core's next cycle (R22, R193). -/
def stepCore (core : Nat) (s : State) : Host.Outcome State Fault Refusal :=
  match runningAct s core with
  | some a => issueAct a.key s
  | none => match switchCore s core with
    | some x => issueAct x.1 x.2
    | none => .next (tick 1 s)

/-! ### The schedule (log 1) -/

/-- What may happen within a slot of its own accord. -/
def actEvents (a : Act) : List Instr :=
  [.fixedLatencyResultLands a.key, .timedLoadDataArrival a.key, .timedLoadLands a.key]
    ++ ((List.range a.pend.length).map fun n => Instr.interlockedResultLands a.key n)
    ++ ([(0 : EReg), 1, 2, 3, 4, 5, 6, 7].flatMap fun e =>
        if (feedOf a e).isSome then [Instr.feedFill a.key e, .feedDrain a.key e] else [])
    ++ (match a.key with
      | .ordinary r t => [.atomrValueDelivery r t, .heldEffectRelease r t, .activationRetire r t]
      | _ => [])
    ++ (match a.place with
      | some p => if h : p.core < 32 ∧ p.slot < 8 then
          [.preemptionLands ⟨p.core, h.1⟩ ⟨p.slot, h.2⟩, .forcedPreemptionPoint ⟨p.core, h.1⟩ ⟨p.slot, h.2⟩] else []
      | none => [])

/-- What may happen in a core of its own accord. -/
def coreEvents (d : Dev) (core : Fin 32) : List Instr :=
  let c := getCore d core.val
  [.arrayRowEntry core, .weightEntry core, .bankReady core, .coreWakeComplete core, .corePowerGate core]
    ++ ((List.finRange 16).flatMap fun t => c.tiles[t.val].busy.map fun b => Instr.busyBitClear core t (Fin.ofNat 64 b.1))
    ++ ((List.finRange 16).filterMap fun b => match c.banks[b.val] with
      | .clearing _ => some (Instr.scratchBankCleared core b) | _ => none)

/-- What may happen at the queues and in the runs of their own accord. -/
def runEvents (d : Dev) : List Instr :=
  (d.queues.flatMap fun q =>
    if q.resident then [Instr.start q.index, .grant q.index, .fencePacket q.index, .signal q.index, .stop q.index, .marker q.index]
    else if q.live && !q.ring.isEmpty then [Instr.queueResidencyChange q.index true] else [])
    ++ d.runs.flatMap fun r => Instr.instantAdmission r.num :: r.instants.map fun i => Instr.instantComplete r.num i.num

/-- The failures that the commands in flight come to now (R423). -/
def collFailures (s : State) : List Instr :=
  (List.range s.dev.colls.length).flatMap fun n => match s.dev.colls[n]? with
    | none => []
    | some c => match findAct s c.who with
      | none => []
      | some a => match collEnd s a c with
        | (_, .failed x y _ _ _) => [Instr.collectiveFailure n x y]
        | _ => []

/-- What the device may do of its own accord, in the order the model tries it. -/
def autoEvents (s : State) : List Instr :=
  [.powerOnBoot, .serviceStartTimeout, .loopPassEnd]
    ++ (acts s).flatMap actEvents
    ++ [.handlerActivationStart]
    ++ ((List.range s.dev.cellq.length).map fun n => Instr.cellRequestArrival n)
    ++ ((List.range s.dev.notices.length).map fun n => Instr.repairNotice n)
    ++ ((List.range s.dev.liveq.length).map fun n => Instr.liveStorePerformed n)
    ++ ((List.range s.dev.cells.length).map fun n => Instr.cellFold n)
    ++ ((List.finRange 4).flatMap fun d => (List.range s.dev.copies[d.val].length).map fun n => Instr.copyEngineElement d n)
    ++ ((List.range s.dev.colls.length).map fun n => Instr.collectiveComplete n)
    ++ collFailures s
    ++ (List.finRange 32).flatMap (coreEvents s.dev)
    ++ runEvents s.dev
    ++ ((List.finRange 4).flatMap fun d => [Instr.distributorPlacement d, .nonSpeculativeWaitExpiry d])
    ++ [.budgetPeriod]

/-- Whether an event changes anything now. -/
def changes (s : State) (i : Instr) : Bool :=
  match exec i s with
  | .next t => t != s
  | _ => false

/-- The next core with a ready slot, cores taken in turn from the one after the core of the activation in focus. -/
def nextCore (s : State) : Option Nat :=
  ((List.range 36).map fun i => (actCore s.act + 1 + i) % 36).find? fun c => !(readyActs s c).isEmpty

/-- What happens when the agenda is empty. -/
def autoChoice (s : State) : Choice :=
  if s.dev.resetting.isSome then .resetDone
  else if let some x := s.dev.torn.find? fun x => reclaimable s.dev x.run.num then .reclaimed x.run.num
  else match (autoEvents s).find? (changes s) with
  | some i => .ev i
  | none => match nextCore s with
    | some c => .issue c
    | none => .tick

/-- A core's L1 gives up a line (R243). -/
def evictLine (d : Dev) (core : Fin 32) (line : Nat) : Dev :=
  putCore d core.val (dropLine (getCore d core.val) line)

/-- A register of an activation takes an uncorrectable error in one of its 64-bit words (R384). -/
def spoilReg (s : State) (k : ActKey) (d : Dest) (word : Fin 32) : State :=
  let n := match d with | .v _ => word.val | _ => 0
  match findAct s k with
  | some a => putAct s { a with badRegs := a.badRegs ++ [(d, n)] }
  | none => s

/-- An entry of a snapshot buffer takes an uncorrectable error, which is met when it lands (R384). -/
def spoilSnap (s : State) (k : ActKey) (n : Nat) : State :=
  match findAct s k with
  | some a =>
    let r := deferredRec codeMEMX 0 5 a.stamp a.seq.toNat
    putAct s { a with snapshot := a.snapshot.mapIdx fun i f => if i = n then { f with memx := some r } else f }
  | none => s

/-- A vault controller's copy of a run's ridge stays where the ridge stands now, for at most 400 cycles (R257). -/
def lagRidge (s : State) (vault : Fin 32) (run : Nat) : State :=
  let v := s.dev.vaults[vault.val]
  let c : RidgeCopy := { run := run, ridge := ridge s run, till := s.dev.cycle + 400 }
  { s with dev := { s.dev with
    vaults := s.dev.vaults.set vault.val { v with copies := v.copies.filter (fun x => x.run != run) ++ [c] } } }

/-- The sum of the shares of a budget. -/
def shareSum (x : Shares) : Nat := (shareNats x).foldl (· + ·) 0

/-- The resident service sets a budget's shares; their sum must be 4,096 (R336). -/
def setShares (s : State) (x : Shares) (d : Dev) : State := if booted s.dev && shareSum x = 4096 then { s with dev := d } else s

/-- Carry out one choice. An encoded instruction happens in a bundle only. -/
def perform (c : Choice) (s : State) : Host.Outcome State Fault Refusal :=
  match c with
  | .ev i => if i.encoded then .next s else exec i s
  | .issue core => stepCore core s
  | .tick => .next (tick 1 s)
  | .evict core line => .next { s with dev := evictLine s.dev core line }
  | .widen n => .next (widenLive s n)
  | .reread k n i => .next (rereadLive s k n i)
  | .rereadCopy die n i => .next (rereadCopy die n i s)
  | .rereadColl n i => .next (rereadColl n i s)
  | .ethernetLink p up => .next { s with dev := { s.dev with ethernet := s.dev.ethernet.set p.val up } }
  | .managementLink up => .next { s with dev := { s.dev with management := up } }
  | .resetDone => .next (resetDone s)
  | .reclaimed n => .next { s with dev := reclaim s.dev n }
  | .flitIntact p => .next (flitIntact p s)
  | .homeShares i x => .next (setShares s x { s.dev with homeShares := s.dev.homeShares.set i.val x })
  | .vaultShares v x => .next (setShares s x { s.dev with vaultShares := s.dev.vaultShares.set v.val x })
  | .ridgeLag v run => .next (lagRidge s v run)
  | .corrupt addr => .next { s with dev := { s.dev with bad := s.dev.bad ++ [addr] } }
  | .corruptCode run addr => .next { s with dev := { s.dev with badCode := s.dev.badCode ++ [(run, addr)] } }
  | .corruptReg k d n => .next (spoilReg s k d n)
  | .corruptSnap k n => .next (spoilSnap s k n)

end Sys2Proof.Machine
end

