-- ==== Sys2Proof/Machine/Fetch.lean ====
section
/-! DEFINITION. A machine in which the next step issues a given slot word: a loaded image whose code is that word, and its
one activation running on core 0 (log 15). -/
namespace Sys2Proof.Machine

/-- The code section: the word, and `addi s0, s0, 0` with the stop bit after a word without one (R21). -/
def fetchCode (w : BitVec 32) : List Byte :=
  bytesOfWord w ++ if w.getLsbD 31 then [] else bytesOfWord 0x80400000#32

/-- The task of the image: eight feeds, every tile and the array. -/
def fetchTask : Task :=
  { num := 0, entry := 0, clock := 0, width := 1, feeds := 8, tiles := List.finRange 16, array := true, handler := false }

/-- A task that handles traps (R379), so that a trap freezes the activation and does not end its run. -/
def fetchHandler : Task :=
  { num := 1, entry := 0, clock := 0, width := 0, feeds := 0, tiles := [], array := false, handler := true }

/-- An image of one task on pk0 and a handler, whose plan names all sixteen scratch banks. -/
def fetchImage (code : List Byte) : Image :=
  { name := [], version := 1, code := code, entry := 0, loft := 0, tasks := [fetchTask, fetchHandler]
    clocks := [{ num := 0, parent := 0, cell := none }], conds := [], tensors := [], data := []
    scratch := (List.range 16).map fun b => { task := none, bank := b, offset := 0, size := 8, first := 0, last := 0 } }

/-- Its run: instant 0 admitted. -/
def fetchRun (code : List Byte) : Run :=
  { num := 0, imageHandle := 0, image := fetchImage code, queue := 0, dieMask := 1, keySlot := 0, reach := 8, allowance := 1
    arg := 0, widths := [], predictors := Vector.replicate 64 (128, false), sites := Vector.replicate 64 (128, false)
    values := [], deadAfter := [], likeWas := none, uses := [], instants := [{ num := 0, returned := 0 }], nextInstant := 1, tables := []
    hbmFrames := [], loftFrames := [], window := [], handles := [], handlerSerial := 0 }

/-- The stamp (0, 0, 0). -/
def stampZero : Stamp := { inst := 0, task := 0, index := 0 }

/-- Its activation at its first bundle in slot 0 of core 0 (R13). -/
def fetchAct : Act :=
  { Act.fresh (.ordinary 0 stampZero) stampZero 0 0 (BitVec.ofNat 64 rootWeight) with
    status := .ready, place := some { core := 0, slot := 0, banks := List.range 16 }, factors := [.path 0] }

/-- Core 0 with slot 0 running. -/
def fetchCore (c : Core) : Core :=
  { c with power := .awake, excluded := false, current := some 0, banks := Vector.replicate 16 .owned }

/-- Place a slot word where the next step fetches. -/
def placeWord (s : State) (w : BitVec 32) : State :=
  { dev := { s.dev with
      boot := .running
      others := (s.act :: s.dev.others).filter fun a => a.key != fetchAct.key && !onCore 0 a
      runs := fetchRun (fetchCode w) :: s.dev.runs.filter fun r => r.num != 0
      cores := s.dev.cores.set 0 (fetchCore s.dev.cores[0]) }
    act := fetchAct, dev0 := s.dev0, act0 := s.act0, iss := Iss.idle, agenda := [.issue 0] }

/-- The machine's choice: the agenda's next entry, else the model's own order. -/
def nextChoice (s : State) : Choice × State :=
  match s.agenda with
  | c :: rest => (c, { s with agenda := rest })
  | [] => (autoChoice s, s)

/-- One step. -/
def advance (s : State) : Host.Outcome State Fault Refusal :=
  match nextChoice s with
  | (c, t) => perform c t

end Sys2Proof.Machine
end

