-- ==== Sys2Proof/Machine/Step.lean ====
section
/-! DEFINITION. The machine's step. -/
namespace Sys2Proof.Machine

/-- One step: the next entry of the agenda, or what the model's own order names (log 1). -/
def step (s : State) : Host.Outcome State Fault Refusal := advance s

/-- A machine whose next step issues the slot word `w` (log 15). -/
def State.withFetchWord (s : State) (_nbits w : Nat) : State := placeWord s (BitVec.ofNat 32 w)

end Sys2Proof.Machine
end

