-- ==== Sys2Proof/Safety.lean ====
section
/-! DEFINITION. The terms in which claims about the machine are stated: what makes a slot take effect, what a slot
that takes effect leaves behind, and what a well-kept state is. -/
namespace Sys2Proof.Machine

/-- A slot takes effect: its structural checks pass with results of tag `t` and its clock present (R15-R17, R370),
and no register it reads or writes awaits an interlocked result (R26). -/
def Effective (s : State) (i : Instr) (t : Tag) : Prop :=
  structural s i = .go t true ∧ awaited s.act0 i = false

/-- A slot that takes effect completes with the state `f` gives for the tag of its results. -/
def Completes (s : State) (i : Instr) (f : Tag → State) : Prop :=
  ∀ t, Effective s i t → exec i s = .next (f t)

/-- A slot that takes effect completes with one scalar result of latency `lat` (R24). -/
def ScalarResult (s : State) (i : Instr) (d : SReg) (x : Word) (lat : Nat) : Prop :=
  Completes s i fun t => resultS s d x lat t

/-- A slot that takes effect completes with one vector result of latency `lat` (R24). -/
def VectorResult (s : State) (i : Instr) (d : VReg) (x : Vec) (lat : Nat) : Prop :=
  Completes s i fun t => resultV s d x lat t

/-- A slot that takes effect traps in this bundle with a code, TADDR and TINFO of its own (R61, R373). -/
def Traps (s : State) (i : Instr) (code addr info : Nat) : Prop :=
  ∀ t, Effective s i t → exec i s = .next (slotTrap s code addr info)

/-- A vector slot that takes effect completes with the lane results `f`, their flags recorded, where no lane raises
an enabled flag (R84, R85). -/
def LaneResult (s : State) (i : Instr) (d : VReg) (w lat : Nat) (f : Nat → FRes) : Prop :=
  (∀ n, n < lanes w → trapsOn (enables s.act0) (f n).2 = false) →
  Completes s i fun t =>
    resultV (addFlags s (allFlags ((List.range (lanes w)).map f))) d (ofLaneList w ((List.range (lanes w)).map fun n => (f n).1)) lat t

/-- A vector slot that takes effect traps FPX where a lane raises an enabled flag: the lowest such lane, and the flags
of all lanes (R85). -/
def LaneTrap (s : State) (i : Instr) (w : Nat) (f : Nat → FRes) : Prop :=
  ∀ n, n < lanes w → trapsOn (enables s.act0) (f n).2 = true →
    (∀ m, m < n → trapsOn (enables s.act0) (f m).2 = false) →
    Traps s i codeFPX 0 (flagsNat (allFlags ((List.range (lanes w)).map f)) + 256 * n)

/-- A vector instruction whose lanes of width `w` are the results `f`, with flags (R84, R85). -/
def LaneOp (s : State) (i : Instr) (d : VReg) (w lat : Nat) (f : Nat → FRes) : Prop :=
  LaneResult s i d w lat f ∧ LaneTrap s i w f

/-- An instruction with one floating-point result in lane 0, every other lane cleared, with its flags (R84, R85). -/
def SingleOp (s : State) (i : Instr) (d : VReg) (lat : Nat) (r : FRes) : Prop :=
  (trapsOn (enables s.act0) r.2 = false → Completes s i fun t =>
    resultV (addFlags s r.2) d (BitVec.ofNat 2048 r.1) lat t) ∧
  (trapsOn (enables s.act0) r.2 = true → Traps s i codeFPX 0 (flagsNat r.2))

/-- A step of the device or a request completes with a given state. -/
def Does (s : State) (i : Instr) (t : State) : Prop := exec i s = .next t

/-- A step keeps a property. -/
def Keeps (p : State → Prop) : Prop := ∀ s t, p s → step s = .next t → p t

/-- The memories of the device and of its copy before the bundle are in canonical form. -/
def MemOk (s : State) : Prop := memWf s.dev.mem = true ∧ memWf s.dev0.mem = true

/-- A run of `n` steps from `s` meets no fault and no refusal. -/
def SafeFor (n : Nat) (s : State) : Prop :=
  match n with
  | 0 => True
  | m + 1 => ∃ t, step s = .next t ∧ SafeFor m t

/-- Clock `k` is a descendant of clock `j`: its parents through defined clocks lead to `j` (R126). There are 14 clocks. -/
def Descends (a : Act) (j k : Nat) : Prop :=
  ∃ m, 1 ≤ m ∧ m ≤ 14 ∧ ∃ p : Nat → Nat, p 0 = k ∧ p m = j ∧
    ∀ i < m, p i ≠ 0 ∧ ∃ h : p i < 14, a.clocks[p i].defd = true ∧ a.clocks[p i].parent.val = p (i + 1)

/-! ### Exact numbers -/

/-- The formats of R71 that have an infinity or a NaN of their own. -/
def floatFormats : List FFmt := [fmtF64, fmtF32, fmtBF16, fmtF16, fmtE5M2, fmtE4M3]

/-- The number a finite bit pattern denotes; 0 for the others. -/
def fval : FVal → ℚ
  | .fin neg m e => (if neg then -1 else 1) * (m : ℚ) * (2 : ℚ) ^ e
  | _ => 0

/-- Whether a bit pattern of a format is finite. -/
def FiniteBits (f : FFmt) (y : Nat) : Prop := y < 2 * signBit f ∧ ∃ n m e, decodeF f y = .fin n m e

/-- `v`, with the bit pattern `bits`, is the number of format `f` that the mode chooses for `x` (R75). -/
def Chosen (f : FFmt) (mode : Mode) (x v : ℚ) (bits : Nat) : Prop :=
  ∀ y, FiniteBits f y →
    let z := fval (decodeF f y)
    match mode with
    | .rtz => |v| ≤ |x| ∧ (|z| ≤ |x| → |z| ≤ |v|)
    | .rup => x ≤ v ∧ (x ≤ z → v ≤ z)
    | .rdn => v ≤ x ∧ (z ≤ x → z ≤ v)
    | .rna => |v - x| ≤ |z - x| ∧ (|v - x| = |z - x| → z ≠ v → |x| ≤ |v|)
    | .rne => |v - x| ≤ |z - x| ∧ (|v - x| = |z - x| → z ≠ v → bits % 2 = 0)
    | .sat => |v - x| ≤ |z - x| ∧ (|v - x| = |z - x| → z ≠ v → bits % 2 = 0)

/-- A result overflows: its rounding with an unbounded exponent range exceeds the largest finite value (R76), whose last
fraction bit is odd but in e4m3. -/
def OverflowsFrom (f : FFmt) (mode : Mode) (x : ℚ) : Prop :=
  let top := fval (decodeF f (maxMag f))
  let ulp := (2 : ℚ) ^ (emax f - f.fbits)
  match mode with
  | .rne => if f.e4m3 then top + ulp / 2 < |x| else top + ulp / 2 ≤ |x|
  | .rna => top + ulp / 2 ≤ |x|
  | .sat => if f.e4m3 then top + ulp / 2 < |x| else top + ulp / 2 ≤ |x|
  | .rtz => top + ulp ≤ |x|
  | .rup => if 0 < x then top < x else top + ulp ≤ |x|
  | .rdn => if x < 0 then top < |x| else top + ulp ≤ |x|

/-- A number is tiny: its rounding with an unbounded exponent range is below the smallest normal number (R78). -/
def Tiny (f : FFmt) (mode : Mode) (x : ℚ) : Prop :=
  let low := (2 : ℚ) ^ emin f
  let ulp := (2 : ℚ) ^ (emin f - 1 - f.fbits)
  match mode with
  | .rne => |x| < low - ulp / 2
  | .rna => |x| < low - ulp / 2
  | .sat => |x| < low - ulp / 2
  | .rtz => |x| < low
  | .rup => if 0 < x then x ≤ low - ulp else |x| < low
  | .rdn => if x < 0 then |x| ≤ low - ulp else x < low

/-- `r` is the one rounding of the non-zero number `x` into a format, with its flags (R75-R78): an overflow, or the number
the mode chooses, with NX where it is not `x` and UF where `x` is tiny besides. -/
def Rounded (f : FFmt) (mode : Mode) (x : ℚ) (r : FRes) : Prop :=
  let v := fval (decodeF f r.1)
  let neg := decide (x < 0)
  let toInf := match mode with
    | .rne => true | .rna => true | .rtz => false | .sat => false | .rup => !neg | .rdn => neg
  r.2.nv = false ∧ r.2.dz = false ∧ (r.2.of = true ↔ OverflowsFrom f mode x) ∧
  (r.2.of = true → r.2.nx = true ∧ r.2.uf = false ∧
    r.1 = withSign f neg (if toInf then (if f.e4m3 then canonNaN f else infMag f) else maxMag f)) ∧
  (r.2.of = false → FiniteBits f r.1 ∧ (r.1 / signBit f % 2 = 1 ↔ x < 0) ∧ Chosen f mode x v r.1 ∧
    (r.2.nx = true ↔ v ≠ x) ∧ (r.2.uf = true ↔ r.2.nx = true ∧ Tiny f mode x))

/-- The number a bit pattern that is no NaN denotes, the infinities included. -/
def xval : FVal → WithBot (WithTop ℚ)
  | .inf true => ⊥
  | .inf false => ((⊤ : WithTop ℚ) : WithBot (WithTop ℚ))
  | v => ((fval v : WithTop ℚ) : WithBot (WithTop ℚ))

/-- `k` is the integer the mode chooses for `x`, its range unbounded (R75, R79). -/
def IntChosen (mode : Mode) (x : ℚ) (k : Int) : Prop :=
  match mode with
  | .rtz => |(k : ℚ)| ≤ |x| ∧ |x| < |(k : ℚ)| + 1 ∧ 0 ≤ k * x
  | .rup => x ≤ k ∧ (k : ℚ) < x + 1
  | .rdn => (k : ℚ) ≤ x ∧ x < k + 1
  | .rna => |x - k| ≤ 1 / 2 ∧ (|x - k| = 1 / 2 → |x| ≤ |(k : ℚ)|)
  | .rne => |x - k| ≤ 1 / 2 ∧ (|x - k| = 1 / 2 → k % 2 = 0)
  | .sat => |x - k| ≤ 1 / 2 ∧ (|x - k| = 1 / 2 → k % 2 = 0)

/-- `r` is the root of the number `x > 0` rounded once into a format (R75, R142): no finite number of the format is nearer it, or
lies between it and the root on the side the mode takes; a root never overflows. -/
def RootRounded (f : FFmt) (mode : Mode) (x : ℚ) (r : FRes) : Prop :=
  let v := fval (decodeF f r.1)
  r.2.nv = false ∧ r.2.dz = false ∧ r.2.of = false ∧ r.2.uf = false ∧ (r.2.nx = true ↔ v * v ≠ x) ∧
  FiniteBits f r.1 ∧ 0 < v ∧
  ∀ y, FiniteBits f y →
    let z := fval (decodeF f y)
    match mode with
    | .rtz => v * v ≤ x ∧ (v < z → x < z * z)
    | .rdn => v * v ≤ x ∧ (v < z → x < z * z)
    | .rup => x ≤ v * v ∧ (0 ≤ z → z < v → z * z < x)
    | .rne => (v < z → 4 * x ≤ (v + z) * (v + z)) ∧ (0 ≤ z → z < v → (v + z) * (v + z) ≤ 4 * x)
    | .rna => (v < z → 4 * x ≤ (v + z) * (v + z)) ∧ (0 ≤ z → z < v → (v + z) * (v + z) ≤ 4 * x)
    | .sat => (v < z → 4 * x ≤ (v + z) * (v + z)) ∧ (0 ≤ z → z < v → (v + z) * (v + z) ≤ 4 * x)

/-- The numbers of F14: a 14-bit fraction, the exponent unbounded (R151). -/
def IsF14 (v : ℚ) : Prop := ∃ m k : Int, |m| < 2 ^ 15 ∧ v = (m : ℚ) * (2 : ℚ) ^ k

/-! ### Exact sums -/

/-- `t` is the exact product of two values as a term of a sum; `none` is 0 × ∞ (R91). -/
def IsProduct (x y : FVal) (t : Option FVal) : Prop :=
  match x, y with
  | .nan .., _ => ∃ g q p, t = some (.nan g q p)
  | _, .nan .. => ∃ g q p, t = some (.nan g q p)
  | .inf g, .inf h => t = some (.inf (g != h))
  | .inf g, .fin h m _ => t = if m = 0 then none else some (.inf (g != h))
  | .fin g m _, .inf h => t = if m = 0 then none else some (.inf (g != h))
  | .fin .., .fin .. => ∃ g m e, t = some (.fin g m e) ∧ fval (.fin g m e) = fval x * fval y

/-- `y` is the value `x` times 2^n: a NaN and an infinity stay (R342). -/
def IsScaled (n : Int) (x y : FVal) : Prop :=
  match x, y with
  | .fin .., .fin .. => fval y = fval x * (2 : ℚ) ^ n
  | _, _ => y = x

/-- `k` is what a term adds on the grid 2^E: the nearest integer, ties to even, of a finite one (R91). -/
def GridTerm (E : Int) (t : Option FVal) (k : Int) : Prop :=
  match t with
  | some (.fin g m e) => IntChosen .rne (fval (.fin g m e) / (2 : ℚ) ^ E) k
  | _ => k = 0

/-- `t` is the sum of `s` and of the `n` terms `f` on the grid 2^E, in `bits` bits (R91). -/
def ExactSum (bits : Nat) (E : Int) (n : Nat) (f : Nat → Option FVal) (s t : XSum) : Prop :=
  (t.sp.nan = true ↔ s.sp.nan = true ∨ ∃ i < n, f i = none ∨ ∃ g q p, f i = some (.nan g q p)) ∧
  (t.sp.pinf = true ↔ s.sp.pinf = true ∨ ∃ i < n, f i = some (.inf false)) ∧
  (t.sp.ninf = true ↔ s.sp.ninf = true ∨ ∃ i < n, f i = some (.inf true)) ∧
  ∃ k : Nat → Int, (∀ i < n, GridTerm E (f i) (k i)) ∧
    (t.v : Int) % 2 ^ bits = (s.v + ((List.range n).map k).sum) % 2 ^ bits

/-- `r` is the readout of an exact sum of special bits `sp` and value `x` (R93). -/
def ReadsOut (f : FFmt) (mode : Mode) (sp : Special) (x : ℚ) (r : FRes) : Prop :=
  (sp.nan = true ∨ (sp.pinf = true ∧ sp.ninf = true) → r = (canonNaN f, flagNV true)) ∧
  (sp.nan = false → sp.pinf = !sp.ninf → r =
    if mode = .sat then (withSign f sp.ninf (maxMag f), { nv := false, dz := false, of := false, uf := false, nx := true })
    else if f.e4m3 then (withSign f sp.ninf 0x7F, flagNV true) else (withSign f sp.ninf (infMag f), noFlags)) ∧
  (sp.nan = false → sp.pinf = false → sp.ninf = false → (x = 0 → r = (0, noFlags)) ∧ (x ≠ 0 → Rounded f mode x r))

end Sys2Proof.Machine
end

