-- ==== Sys2Proof/Certificates/Slice0/Obligations.lean ====
section
/-! DEFINITION. The claims: what the numbered rules of the manual say, stated of the machine. -/
open Sys2Proof Sys2Proof.Machine

/-! ## Scalar arithmetic (R97-R101) -/

/-- R97: the effect of every SALU sub-code but PADD, latency 1. A count is sB[5:0]; SEL tests the old sD.
R98: PADD's exact sum stays in its window and its tensor, or the bundle traps WIN with TADDR sA and TINFO sB. -/
def Obligations.ScalarAluResults : Prop :=
  (
    ∀ (s : State) (k : KSel) (d a b : SReg), let x := readS s.act0 a; let y := readS s.act0 b
      ScalarResult s (.add k d a b) d (x + y) 1 ∧ ScalarResult s (.sub k d a b) d (x - y) 1 ∧
      ScalarResult s (.and k d a b) d (x &&& y) 1 ∧ ScalarResult s (.or k d a b) d (x ||| y) 1 ∧
      ScalarResult s (.xor k d a b) d (x ^^^ y) 1 ∧ ScalarResult s (.andn k d a b) d (x &&& ~~~y) 1 ∧
      ScalarResult s (.shl k d a b) d (x <<< (y.toNat % 64)) 1 ∧
      ScalarResult s (.shr k d a b) d (x >>> (y.toNat % 64)) 1 ∧
      ScalarResult s (.sar k d a b) d (x.sshiftRight (y.toNat % 64)) 1 ∧
      ScalarResult s (.rotr k d a b) d (x.rotateRight (y.toNat % 64)) 1 ∧
      ScalarResult s (.min k d a b) d (if x.toInt < y.toInt then x else y) 1 ∧
      ScalarResult s (.max k d a b) d (if x.toInt < y.toInt then y else x) 1 ∧
      ScalarResult s (.minn k d a b) d (if x.toNat < y.toNat then x else y) 1 ∧
      ScalarResult s (.maxn k d a b) d (if x.toNat < y.toNat then y else x) 1 ∧
      ScalarResult s (.seq k d a b) d (if x = y then 1 else 0) 1 ∧
      ScalarResult s (.sne k d a b) d (if x = y then 0 else 1) 1 ∧
      ScalarResult s (.slt k d a b) d (if x.toInt < y.toInt then 1 else 0) 1 ∧
      ScalarResult s (.sltn k d a b) d (if x.toNat < y.toNat then 1 else 0) 1 ∧
      ScalarResult s (.sel k d a b) d (if readS s.act0 d ≠ 0 then x else y) 1 ∧
      ScalarResult s (.clz k d a) d (BitVec.ofNat 64 (if x = 0 then 64 else 63 - Nat.log2 x.toNat)) 1 ∧
      (∃ n, ScalarResult s (.ctz k d a) d (BitVec.ofNat 64 n) 1 ∧ n ≤ 64 ∧
        (∀ i, i < n → x.getLsbD i = false) ∧ (n < 64 → x.getLsbD n = true)) ∧
      ScalarResult s (.popc k d a) d (BitVec.ofNat 64 ((List.range 64).countP fun i => x.getLsbD i)) 1) ∧
  (
    ∀ (s : State) (k : KSel) (d a b : SReg), let x := readS s.act0 a; let y := readS s.act0 b
      let sum : Int := (x.toNat : Int) + y.toInt
      let good := x.toNat / 2 ^ 62 ≠ 3 ∧ 0 ≤ sum ∧ sum < 2 ^ 64 ∧ sum.toNat / 2 ^ 62 = x.toNat / 2 ^ 62 ∧
        (x.toNat / 2 ^ 62 = 2 → sum.toNat / 2 ^ 44 = x.toNat / 2 ^ 44)
      (good → ScalarResult s (.padd k d a b) d (BitVec.ofInt 64 sum) 1) ∧
      (¬ good → Traps s (.padd k d a b) 0x07 x.toNat y.toNat))

/-- R99 with the division cases of R70: the effect and latency of every SMUL sub-code.
R56, R100, R101: the I forms and LI. The immediate is IMM11 sign-extended, or under one X slot the 32-bit number
its payload and IMM11 make, or under two the 53-bit one; an X slot hands its payload on. LI's result carries tag 30. -/
def Obligations.MultiplyDivideAndImmediates : Prop :=
  (
    ∀ (s : State) (k : KSel) (d a b : SReg), let x := readS s.act0 a; let y := readS s.act0 b
      ScalarResult s (.mul k d a b) d (BitVec.ofInt 64 (x.toInt * y.toInt)) 3 ∧
      ScalarResult s (.mulh k d a b) d (BitVec.ofInt 64 (x.toInt * y.toInt / 2 ^ 64)) 4 ∧
      ScalarResult s (.mulhn k d a b) d (BitVec.ofNat 64 (x.toNat * y.toNat / 2 ^ 64)) 4 ∧
      ScalarResult s (.div k d a b) d (if y = 0 then 0xFFFFFFFFFFFFFFFF else
        if x.toInt = -2 ^ 63 ∧ y.toInt = -1 then 0x8000000000000000 else BitVec.ofInt 64 (x.toInt.tdiv y.toInt)) 20 ∧
      ScalarResult s (.divn k d a b) d (if y = 0 then 0xFFFFFFFFFFFFFFFF else BitVec.ofNat 64 (x.toNat / y.toNat)) 20 ∧
      ScalarResult s (.rem k d a b) d (if y = 0 then x else
        if x.toInt = -2 ^ 63 ∧ y.toInt = -1 then 0 else BitVec.ofInt 64 (x.toInt - y.toInt * x.toInt.tdiv y.toInt)) 20 ∧
      ScalarResult s (.remn k d a b) d (if y = 0 then x else BitVec.ofNat 64 (x.toNat - y.toNat * (x.toNat / y.toNat))) 20) ∧
  (
    ∀ (s : State) (k : KSel) (d a : SReg) (imm : BitVec 11) (n : Fin 64) (p : BitVec 21), let x := readS s.act0 a
      let v : Int := match s.iss.ext with
        | [] => imm.toInt
        | [p] => (p ++ imm).toInt
        | p :: q :: _ => (p ++ q ++ imm).toInt
      ScalarResult s (.addi k d a imm) d (x + BitVec.ofInt 64 v) 1 ∧
      ScalarResult s (.andi k d a imm) d (x &&& BitVec.ofInt 64 v) 1 ∧
      ScalarResult s (.ori k d a imm) d (x ||| BitVec.ofInt 64 v) 1 ∧
      ScalarResult s (.xori k d a imm) d (x ^^^ BitVec.ofInt 64 v) 1 ∧
      ScalarResult s (.shli k d a n) d (x <<< n.val) 1 ∧ ScalarResult s (.shri k d a n) d (x >>> n.val) 1 ∧
      ScalarResult s (.sari k d a n) d (x.sshiftRight n.val) 1 ∧
      ScalarResult s (.slti k d a imm) d (if x.toInt < v then 1 else 0) 1 ∧
      ScalarResult s (.sltni k d a imm) d (if x.toNat < (BitVec.ofInt 64 v).toNat then 1 else 0) 1 ∧
      Completes s (.li k d imm) (fun _ => resultS s d (BitVec.ofInt 64 v) 1 30) ∧
      exec (.literalExtension p) s = .next { s with iss := { s.iss with ext := s.iss.ext ++ [p] } })


/-! ## Control and status registers (R20, R36-R40, R102, R103, R404) -/

/-- R36, R39, R102, R103, R373: CSRR reads each CSR as it stood before the bundle, latency 1. STATUS: CORE is the core's
number, or 0x80 plus a steward's (R426).
R36-R40, R102, R103, R196: CSRW, CSRS and CSRC write the RW fields of FPC, VPART and PWAKE, and nothing else of the
machine. FPC.RM stays where the result's RM would be 000 or 111. -/
def Obligations.ControlRegisters : Prop :=
  (
    ∀ (s : State) (k : KSel) (d : SReg) (r : Run) (p : Place), let a := s.act0
      let reads := fun (n : Fin 2048) (x : Word) => ScalarResult s (.csrr k d n) d x 1
      reads 0x000 a.fpc ∧ reads 0x002 a.vpart ∧ reads 0x010 (BitVec.ofNat 64 a.stamp.inst) ∧
      reads 0x011 (BitVec.ofNat 64 a.stamp.task) ∧ reads 0x012 (BitVec.ofNat 64 a.stamp.index) ∧
      reads 0x013 (a.seq.setWidth 64) ∧ reads 0x017 a.weight ∧
      reads 0x040 a.trap.cause ∧ reads 0x041 a.trap.pc ∧ reads 0x042 a.trap.addr ∧ reads 0x043 a.trap.stamp ∧
      reads 0x044 a.trap.info ∧ reads 0x100 s.dev0.pwake ∧ reads 0x101 a.preemptCsr ∧
      (actRun (before s) a = some r → reads 0x014 (BitVec.ofNat 64 (likelihood r a)) ∧
        reads 0x015 (BitVec.ofNat 64 (ridgeInstant (before s) r)) ∧ reads 0x016 (BitVec.ofNat 64 r.reach)) ∧
      (a.place = some p → reads 0x001 (BitVec.ofNat 64 (
        (if p.core < 32 then p.core else 0x80 + (p.core - 32)) * 256 + p.slot * 16 +
        (if atRidge (before s) a then 2 else 0) + (if speculative (before s) a then 1 else 0)))) ∧
      (∀ n : Fin 6, ∀ h : 0x021 + 2 * n.val < 2048,
        reads ⟨0x020 + 2 * n.val, by omega⟩ (match a.loops.reverse[n.val]? with | some l => l.count | none => 0) ∧
        reads ⟨0x021 + 2 * n.val, h⟩ (match a.loops.reverse[n.val]? with | some l => l.index | none => 0)) ∧
      (∃ x : Word, reads 0x030 x ∧ (∀ n : Fin 14, x.getLsbD n.val = a.clocks[n.val].defd ∧
        x.getLsbD (16 + n.val) = (a.clocks[n.val].defd && a.clocks[n.val].pres)) ∧
        ∀ j, j = 14 ∨ j = 15 ∨ 30 ≤ j → x.getLsbD j = false)) ∧
  (
    ∀ (s : State) (k : KSel) (a : SReg), let x := readS s.act0 a
      let fpc := fun (y : Word) => { s with act := { s.act with
        fpc := (y &&& 0x1FF8) ||| ((if y.toNat % 8 = 0 ∨ y.toNat % 8 = 7 then s.act0.fpc else y) &&& 7) } }
      let vpart := fun (y : Word) => { s with act := { s.act with vpart := y &&& 7 } }
      let pwake := fun (y : Word) => { s with dev := { s.dev with pwake := y &&& 0xFFFF } }
      Completes s (.csrw k a 0x000) (fun _ => fpc x) ∧ Completes s (.csrs k a 0x000) (fun _ => fpc (s.act0.fpc ||| x)) ∧
      Completes s (.csrc k a 0x000) (fun _ => fpc (s.act0.fpc &&& ~~~x)) ∧
      Completes s (.csrw k a 0x002) (fun _ => vpart x) ∧
      Completes s (.csrs k a 0x002) (fun _ => vpart (s.act0.vpart ||| x)) ∧
      Completes s (.csrc k a 0x002) (fun _ => vpart (s.act0.vpart &&& ~~~x)) ∧
      Completes s (.csrw k a 0x100) (fun _ => pwake x) ∧
      Completes s (.csrs k a 0x100) (fun _ => pwake (s.dev0.pwake ||| x)) ∧
      Completes s (.csrc k a 0x100) (fun _ => pwake (s.dev0.pwake &&& ~~~x)))

/-! ## Control (R27-R30, R54, R104-R119) -/

/-- R54, R104-R106, R108: BR, JAL and JALR. A target outside the code section traps WIN with TADDR the target; JALR's
misaligned target traps ALIGN first. Otherwise control is transferred, and JAL and JALR link. -/
def Obligations.BranchesAndCalls : Prop :=
  ∀ (s : State) (k : KSel) (d a : SReg) (disp : BitVec 21) (imm : BitVec 11),
    let len : Int := (codeOf s s.act0).length
    let b : Int := s.act0.pc + 4 * disp.toInt
    let j : Int := (readS s.act0 a).toNat + 4 * immOf s imm
    let link := BitVec.ofNat 64 (s.act0.pc + 4 * s.iss.words.length)
    let go := fun (x : Int) => { s with iss := { s.iss with ctl := .jump x.toNat } }
    let out := fun (x : Int) => x < 0 ∨ len ≤ x
    (¬ out b → Completes s (.br k disp) (fun _ => go b) ∧ Completes s (.jal k disp) (fun t => resultS (go b) 30 link 1 t)) ∧
    (out b → Traps s (.br k disp) 0x07 (wrapNat 64 b) 0 ∧ Traps s (.jal k disp) 0x07 (wrapNat 64 b) 0) ∧
    (j % 4 ≠ 0 → Traps s (.jalr k d a imm) 0x08 (wrapNat 64 j) 0) ∧
    (j % 4 = 0 → out j → Traps s (.jalr k d a imm) 0x07 (wrapNat 64 j) 0) ∧
    (j % 4 = 0 → ¬ out j → Completes s (.jalr k d a imm) (fun t => resultS (go j) d link 1 t))

/-- R21: a bundle is the words from the pc up to the first stop bit, at most eight. R27, R29, R111: the last bundle of a body and
the bundle after it are found by counting stop bits from the body's start.
R27-R29, R109, R110, R112: LOOP and LOOPI push a level of index 0 that starts at the next bundle, or skip the body
where the count is 0; a push is refused with six levels or in the last bundle of the innermost body. LIDX, LBRK, LNEXT
and LDEPTH; LOOPU where the level is not there.
R29, R113: LOOP_PASS_END. The innermost index rises by 1; when it reaches the count the level is popped, and a level
beneath whose last bundle is the same one meets the same check; then execution goes on after the popped body, or at the
start of the level that has another pass.
(The model's choice, log 55: where the bundle after a body stands when the body reaches past the code section. Log 16: a bundle ends
a pass where its address is that of the body's last bundle, so one that is entered inside that bundle ends none. Log 63: a push with six
levels active that is also in the last bundle of the innermost body is LOOPO with TINFO 0.) -/
def Obligations.Loops : Prop :=
  (
    ∀ (code : List Byte) (pc n : Nat) (ws : List (BitVec 32)) (l : Level) (a : Act),
      let whole := fun (p k : Nat) => ∀ i < k, (codeWord code (p + 4 * i)).isSome = true
      let ends := fun (p i : Nat) => (codeWord code (p + 4 * i)).any (·.getLsbD 31)
      let bodies := fun (k m : Nat) => whole l.start k ∧ (List.range k).countP (ends l.start) = m ∧
        (0 < k → ends l.start (k - 1) = true)
      (fetchBundle code pc = .ok ws ↔ 0 < ws.length ∧ ws.length ≤ 8 ∧
        ∀ i < ws.length, codeWord code (pc + 4 * i) = ws[i]? ∧ (ends pc i = true ↔ i + 1 = ws.length)) ∧
      (fetchBundle code pc = .open_ ws ↔ ws.length = 8 ∧ ∀ i < 8, codeWord code (pc + 4 * i) = ws[i]? ∧ ends pc i = false) ∧
      (fetchBundle code pc = .off ↔ ∃ k < 8, whole pc k ∧ codeWord code (pc + 4 * k) = none ∧ ∀ i < k, ends pc i = false) ∧
      (bodies n l.len → bodyAfter code l = l.start + 4 * n) ∧ (bodies n (l.len - 1) → bodyLast code l = l.start + 4 * n) ∧
      (endsBody code a pc = true ↔ ∃ l rest, a.loops = l :: rest ∧ bodyLast code l = pc)) ∧
  (
    ∀ (s : State) (k : KSel) (d a : SReg) (cnt : Fin 1024) (len : Fin 2048) (n : Fin 6),
      let code := codeOf s s.act0
      let level := fun (c : Word) =>
        { count := c, index := 0, start := s.act0.pc + 4 * s.iss.words.length, len := len.val : Level }
      let ctl := fun (c : Ctl) => { s with iss := { s.iss with ctl := c } }
      let full := 6 ≤ s.act0.loops.length
      let last := ∃ l rest, s.act0.loops = l :: rest ∧ bodyLast code l = s.act0.pc
      let pushes := fun (i : Instr) (c : Word) =>
        (full → Traps s i 0x05 0 0) ∧ (¬ full → last → Traps s i 0x05 0 1) ∧
        (¬ full → ¬ last → c = 0 → Completes s i fun _ => ctl (.skipBody (bodyAfter code (level c)))) ∧
        (¬ full → ¬ last → c ≠ 0 → Completes s i fun _ => ctl (.pushLevel (level c)))
      pushes (.loop k a len) (readS s.act0 a) ∧ pushes (.loopi k cnt len) (BitVec.ofNat 64 cnt.val) ∧
      (∀ l, s.act0.loops[n.val]? = some l → ScalarResult s (.lidx k d n) d l.index 1) ∧
      (s.act0.loops[n.val]? = none → Traps s (.lidx k d n) 0x06 0 0) ∧
      (∀ l rest, s.act0.loops = l :: rest →
        Completes s (.lbrk k) (fun _ => ctl (.popLevel (bodyAfter code l))) ∧ Completes s (.lnext k) fun _ => ctl .endPass) ∧
      (s.act0.loops = [] → Traps s (.lbrk k) 0x06 0 0 ∧ Traps s (.lnext k) 0x06 0 0) ∧
      ScalarResult s (.ldepth k d) d (BitVec.ofNat 64 s.act0.loops.length) 1) ∧
  (
    ∀ (s : State), let code := codeOf s s.act
      let ends := fun (loops : List Level) (pc : Nat) => exec .loopPassEnd s = .next { s with act := { s.act with
        loops := loops, pc := pc, passEnd := false, boundary := true } }
      (s.act.passEnd = false → exec .loopPassEnd s = .next s) ∧
      (s.act.passEnd = true → ∀ l rest, s.act.loops = l :: rest →
        (l.index + 1 ≠ l.count → ends ({ l with index := l.index + 1 } :: rest) l.start) ∧
        (l.index + 1 = l.count → rest = [] → ends [] (bodyAfter code l)) ∧
        (∀ m rest', l.index + 1 = l.count → rest = m :: rest' → bodyLast code m ≠ bodyLast code l →
          ends rest (bodyAfter code l)) ∧
        (∀ m rest', l.index + 1 = l.count → rest = m :: rest' → bodyLast code m = bodyLast code l →
          exec .loopPassEnd s = exec .loopPassEnd { s with act := { s.act with loops := rest } })))

/-- R114-R117, R401: NOP changes nothing; YIELD, END and HALT are recorded and take effect when the bundle commits, END
once the activation's feeds, engine commands and array commands let it; BRK and TRAP trap.
R118, R119, R270, R271, R273, R295: a WAIT whose condition holds completes and changes no register: WAIT.GEN, WAIT.EQ and WAIT.GE
on a live word as it stands at its home, which also act as an acquire of system scope and let the engine writes the word has counted
be seen, WAIT.RIDGE at the ridge, after which the core keeps no line that would hide a lower phase's live write, WAIT.FEED on a
usable feed. One whose condition does not hold stalls the bundle, and one on memory does so too while a store on that word is not
yet read by every party, or behind a FENCE of its own bundle; a pointer that is refused traps, a word with an uncorrectable error
MEMX, an unbound feed FEED with cause UNBOUND.
(Log 45: the width of the word a wait reads, and a feed that is usable: one at the end of its pattern is not, one that holds a failure
is. Log 43: the stores and atomics on their way that a WAIT on memory stalls for. Log 36: when a stall is met. Log 44: how a WAIT acts
as an acquire, the lines WAIT.RIDGE and a satisfied WAIT drop, and a WAIT behind a FENCE. Log 71: what a WAIT lets be seen of the
engine writes. Log 58: MEMX of the word.) -/
def Obligations.SequenceAndWaits : Prop :=
  (
    ∀ (s : State) (k : KSel) (imm : BitVec 11),
      let ctl := fun (c : Ctl) => { s with iss := { s.iss with ctl := c } }
      Completes s (.nop k) (fun _ => s) ∧ Completes s (.yield k) (fun _ => ctl .yield) ∧
      Completes s (.halt k) (fun _ => ctl .halt) ∧
      (checkEndFeeds s.act0 = none → endBusy s.dev0 s.act0 = false → arrayBusy s.dev0 s.act0 = false →
        (∀ (e : EReg) (g : Feed), feedOf s.act e = some g → g.batten.out = true → g.buf = []) →
        Completes s (.endAct k) fun _ => ctl .endAct) ∧
      Traps s (.brk k) 0x14 0 0 ∧ Traps s (.trap k imm) 0x13 0 (immWord s imm).toNat) ∧
  (
    ∀ (s : State) (k : KSel) (a b : SReg) (e : EReg) (l : Located) (f : Feed), let x := before s
      let p := (readS s.act0 a).toNat
      let v := (readS s.act0 b).toNat
      let word := memReadNat s.dev0.mem l.addr 8
      let gen : Nat := word / 2 ^ 48
      let acquired := fun (f : Dev → Dev) => { s with act := settleReads s.act, dev := f (dropLines s.dev (actCore s.act0)) }
      let seen := acquired fun d => seeCovered d s.act0.key (nextSeq s) l.addr
      let stalls := fun (i : Instr) => ∀ t, Effective s i t → ∃ u, exec i s = .next u ∧ u.iss.status = .switched ∧ u.act.pc = s.act0.pc
      let refused := fun (i : Instr) (n : Nat) =>
        ∀ y, locate x s.act0 p n n .liveOnly false 0 = .error y → Traps s i y.code y.addr y.info
      let bad := fun (i : Instr) (n : Nat) =>
        locate x s.act0 p n n .liveOnly false 0 = .ok l → badIn s.dev0 l.addr n = true → Traps s i 0x19 p (memLevel l.addr)
      let behind := fenced s.dev s.act0.key = true ∧ (engineLeft s.dev0 s.act0.key = true ∨ ownLive s.dev0 s.act0.key ≠ [])
      let early := liveBlocked x s.dev0 s.act0 = true ∨ atomPending s.dev0 s.act0.key l.addr 8 = true ∨ behind ∨
        narrowStore s.dev0 (liveCore s.act0) s.act0.key s.act0.seq.toNat l.addr 8 = true
      let reads := fun (n : Nat) => locate x s.act0 p n n .liveOnly false 0 = .ok l ∧ badIn s.dev0 l.addr n = false ∧ ¬ early
      let waits := fun (i : Instr) (n : Nat) =>
        locate x s.act0 p n n .liveOnly false 0 = .ok l → badIn s.dev0 l.addr n = false → early → stalls i
      refused (.waitGen k a b) 16 ∧ refused (.waitEq k a b) 8 ∧ refused (.waitGe k a b) 8 ∧
      bad (.waitGen k a b) 16 ∧ bad (.waitEq k a b) 8 ∧ bad (.waitGe k a b) 8 ∧
      waits (.waitGen k a b) 16 ∧ waits (.waitEq k a b) 8 ∧ waits (.waitGe k a b) 8 ∧
      (reads 16 →
        (((gen : Int) - (v % 65536 : Nat)) % 65536 < 32768 → Completes s (.waitGen k a b) fun _ => seen) ∧
        (¬ ((gen : Int) - (v % 65536 : Nat)) % 65536 < 32768 → stalls (.waitGen k a b))) ∧
      (reads 8 →
        (word = v → Completes s (.waitEq k a b) fun _ => seen) ∧ (word ≠ v → stalls (.waitEq k a b)) ∧
        (v ≤ word → Completes s (.waitGe k a b) fun _ => seen) ∧ (word < v → stalls (.waitGe k a b))) ∧
      (atRidge x s.act0 = true → Completes s (.waitRidge k) fun _ => acquired id) ∧
      (atRidge x s.act0 = false → stalls (.waitRidge k)) ∧
      (feedOf s.act0 e = some f → feedUsable s.act0 e = true → Completes s (.waitFeed k e) fun _ => s) ∧
      (feedOf s.act0 e = some f → feedUsable s.act0 e = false → stalls (.waitFeed k e)) ∧
      (feedOf s.act0 e = none → Traps s (.waitFeed k e) 0x0D 0 (e.val * 65536 + 2)))


/-! ## Clocks (R18, R19, R125-R136) -/

/-- R19, R126-R129: CLKON, CLKOFF and CLKSPLIT define their clocks as children of K, CLKUNDEF frees its clock; every descendant of a
defined or freed clock is freed; every other clock keeps whether it is defined, its parent and its presence, and its pair role stays
or, with its partner lost, becomes 0; registers tagged with a defined or freed clock become stale, other registers keep value and
tag, and the position, FPC and the sequence number stay; no word with a qualifier for K decodes to one of the four.
R130, R133-R136: CLKQ reads presence; WHEN and CURR copy their source; MERGE copies the half of the split pair that is present, the
pair being named by the tag of A, or else by that of B. Scalar forms have latency 1, vector forms 2.
(Log 42: results of the same bundle.) -/
def Obligations.Clocks : Prop :=
  (
    ∀ (s : State) (n : Fin 14) (d e : CReg) (a : SReg), s.act = s.act0 → let x := readS s.act0 a
      let gone := fun (j : Fin 14) => descends s.act0 d.val 14 j.val = true
      let gone2 := fun (j : Fin 14) => descends s.act0 e.val 14 j.val = true
      let after := fun (i : Instr) (p : Act → Prop) => ∀ t, Effective s i t → ∃ u, exec i s = .next u ∧ p u.act ∧
        u.act.s = s.act.s ∧ u.act.v = s.act.v ∧ u.act.pc = s.act.pc ∧ u.act.fpc = s.act.fpc ∧ u.act.seq = s.act.seq ∧
        u.dev.mem = s.dev.mem
      let stale := fun (p : Fin 14 → Prop) (u : Act) => ∀ (r : Fin 32),
        ((∃ j, p j ∧ s.act.sTag[r.val].toNat = j.val) → u.sTag[r.val] = 31) ∧
        ((¬ ∃ j, p j ∧ s.act.sTag[r.val].toNat = j.val) → u.sTag[r.val] = s.act.sTag[r.val]) ∧
        ((∃ j, p j ∧ s.act.vTag[r.val].toNat = j.val) → u.vTag[r.val] = 31) ∧
        ((¬ ∃ j, p j ∧ s.act.vTag[r.val].toNat = j.val) → u.vTag[r.val] = s.act.vTag[r.val])
      let frees := fun (p : Fin 14 → Prop) (u : Act) =>
        ∀ j : Fin 14, p j → u.clocks[j.val].defd = false ∧ u.clocks[j.val].pres = false
      let keeps := fun (p : Fin 14 → Prop) (u : Act) => ∀ j : Fin 14, ¬ p j →
        u.clocks[j.val].defd = s.act.clocks[j.val].defd ∧ u.clocks[j.val].parent = s.act.clocks[j.val].parent ∧
        u.clocks[j.val].pres = s.act.clocks[j.val].pres ∧
        (u.clocks[j.val].role = s.act.clocks[j.val].role ∨ u.clocks[j.val].role = 0)
      let one := fun (c : Bool) (u : Act) =>
        u.clocks[d.val] = { defd := true, parent := n, role := 0, pres := c } ∧
        frees (fun j => j ≠ d ∧ gone j) u ∧ keeps (fun j => j = d ∨ gone j) u ∧ stale (fun j => j = d ∨ gone j) u
      (d ≠ 0 → after (.clkon (.clk n) d a) (one (x != 0)) ∧ after (.clkoff (.clk n) d a) (one (x == 0))) ∧
      (d ≠ 0 → e.val = d.val + 1 →
        after (.clksplit (.clk n) d a) fun u =>
          u.clocks[d.val] = { defd := true, parent := n, role := 1, pres := x != 0 } ∧
          u.clocks[e.val] = { defd := true, parent := n, role := 2, pres := x == 0 } ∧
          frees (fun j => j ≠ d ∧ j ≠ e ∧ (gone j ∨ gone2 j)) u ∧ keeps (fun j => j = d ∨ j = e ∨ gone j ∨ gone2 j) u ∧
          stale (fun j => j = d ∨ j = e ∨ gone j ∨ gone2 j) u) ∧
      (d ≠ 0 → s.act.clocks[d.val].defd = true → after (.clkundef (.clk n) d) fun u =>
        frees (fun j => j = d ∨ gone j) u ∧ keeps (fun j => j = d ∨ gone j) u ∧ stale (fun j => j = d ∨ gone j) u) ∧
      (s.act.clocks[d.val].defd = false → Completes s (.clkundef (.clk n) d) fun _ => s)) ∧
  (
    ∀ (w : BitVec 32) (x : Slot) (k : KSel) (d : CReg) (a : SReg), decodeWord w = some x →
      (x.instr = .clkon k d a ∨ x.instr = .clkoff k d a ∨ x.instr = .clksplit k d a ∨ x.instr = .clkundef k d →
        k ≠ .first ∧ k ≠ .last ∧ d ≠ 0) ∧
      (x.instr = .clkon k d a ∨ x.instr = .clkoff k d a ∨ x.instr = .clksplit k d a → k ≠ .clk d) ∧
      (x.instr = .clksplit k d a → d.val ≤ 12 ∧ ∀ n, k = .clk n → n.val ≠ d.val + 1)) ∧
  (
    ∀ (s : State) (k : KSel) (d a b : Fin 32) (c : CReg) (j : Fin 13),
      let pres := s.act0.clocks[j.val].pres
      ScalarResult s (.clkq k d c) d (if s.act0.clocks[c.val].pres then 1 else 0) 1 ∧
      ScalarResult s (.whenScalar k d a) d (readS s.act0 a) 1 ∧ VectorResult s (.whenVector k d a) d (readV s.act0 a) 2 ∧
      ScalarResult s (.currScalar k d a) d (readS s.act0 a) 1 ∧ VectorResult s (.currVector k d a) d (readV s.act0 a) 2 ∧
      (1 ≤ j.val → (tagS s.act0 a).toNat = j.val ∨ ((tagS s.act0 a).toNat = 30 ∧ (tagS s.act0 b).toNat = j.val + 1) →
        ScalarResult s (.mergeScalar k d a b) d (if pres then readS s.act0 a else readS s.act0 b) 1) ∧
      (1 ≤ j.val → (tagV s.act0 a).toNat = j.val ∨ ((tagV s.act0 a).toNat = 30 ∧ (tagV s.act0 b).toNat = j.val + 1) →
        VectorResult s (.mergeVector k d a b) d (if pres then readV s.act0 a else readV s.act0 b) 2))


/-! ## Vector instructions (R83-R87, R138-R159) -/

/-- R69, R84, R85, R142: VADD, VSUB and VMUL. A float lane is the one rounding of the exact result, latency 4, 6 in
f64; an integer lane is taken modulo 2^w, or under M = 110 clamped to the signed range, latency 2, 4 for VMUL. -/
def Obligations.VectorAddSubMul : Prop :=
  ∀ (s : State) (k : KSel) (d a b : VReg) (t : LaneType) (m : Rnd),
    let w := ltWidth t
    let x := lane w (readV s.act0 a)
    let y := lane w (readV s.act0 b)
    let fl := fun (g : FFmt → Mode → Nat → Nat → FRes) (n : Nat) => g (ltFmt t) (fpMode s m) (x n) (y n)
    let int := fun (z : Int) => (wrapNat w (if m = .sat then max (-2 ^ (w - 1)) (min (2 ^ (w - 1) - 1) z) else z), noFlags)
    let it := fun (g : Int → Int → Int) (n : Nat) => int (g (sextInt w (x n)) (sextInt w (y n)))
    let lat := if t = .f64 then 6 else 4
    (ltFloat t = true → LaneOp s (.vadd k d a b t m) d w lat (fl fAdd) ∧ LaneOp s (.vsub k d a b t m) d w lat (fl fSub) ∧
      LaneOp s (.vmul k d a b t m) d w lat (fl fMul)) ∧
    (ltFloat t = false → LaneOp s (.vadd k d a b t m) d w 2 (it (· + ·)) ∧ LaneOp s (.vsub k d a b t m) d w 2 (it (· - ·)) ∧
      LaneOp s (.vmul k d a b t m) d w 4 (it (· * ·)))

/-- R24, R84, R85, R142, R152: VFMA (a × b + d), VFMS (a × b − d), VFNMA (−(a × b) + d), VDIV, VSQRT and VSCALB, one
rounding for each lane. -/
def Obligations.VectorFusedDivideRoot : Prop :=
  ∀ (s : State) (k : KSel) (d a b : VReg) (t : LaneType) (m : Rnd),
    let w := ltWidth t
    let x := lane w (readV s.act0 a)
    let y := lane w (readV s.act0 b)
    let z := lane w (readV s.act0 d)
    let f := ltFmt t
    let r := fpMode s m
    let lat := if t = .f64 then 6 else 4
    LaneOp s (.vfma k d a b t m) d w lat (fun n => fFma f r false false (x n) (y n) (z n)) ∧
    LaneOp s (.vfms k d a b t m) d w lat (fun n => fFma f r false true (x n) (y n) (z n)) ∧
    LaneOp s (.vfnma k d a b t m) d w lat (fun n => fFma f r true false (x n) (y n) (z n)) ∧
    LaneOp s (.vdiv k d a b t m) d w (if t = .f64 then 24 else 14) (fun n => fDiv f r (x n) (y n)) ∧
    LaneOp s (.vsqrt k d a t m) d w (if t = .f64 then 28 else 16) (fun n => fSqrt f r (x n)) ∧
    LaneOp s (.vscalb k d a b t m) d w lat (fun n => fScalb f r (x n) (sextInt w (y n)))

/-- R79, R82-R87, R93, R143-R145: VMINMAX, VCMP and VCVT. A relation gives all ones or zero; a widening VCVT reads the part
of the source that VPART names, a narrowing one writes that part of the destination and keeps every other lane. Relations compare
the numbers, -0 equal to +0, with NV as R143 gives; a selection orders -0 below +0 and passes over or on a NaN as R83 gives; a
conversion is the one rounding of the number, the integer the mode chooses kept in range, or the NaN with its sign and payload.
(Log 14: a widened infinity under SAT.) -/
def Obligations.VectorCompareSelectConvert : Prop :=
  (
  ∀ (s : State) (k : KSel) (d a b : VReg) (t : LaneType) (op : MinMaxOp) (c : CmpOp) (dst src : Fmt4) (r : Rnd),
    let w := ltWidth t
    let x := lane w (readV s.act0 a)
    let y := lane w (readV s.act0 b)
    let sx := fun n => sextInt w (x n)
    let sy := fun n => sextInt w (y n)
    let ones := fun (p : Bool) => if p then 2 ^ w - 1 else 0
    let ws := fmt4Width src
    let wd := fmt4Width dst
    let part := s.act0.vpart.toNat
    let cv := fun (j : Nat) => convert (fmt4Kind src) (fmt4Kind dst) (fpMode s r) (lane ws (readV s.act0 a) j)
    let base := part % (ws / wd) * (2048 / ws)
    (ltFloat t = true → LaneOp s (.vminmax k d a b t op) d w 2 (fun n => fMinMax (ltFmt t) op (x n) (y n)) ∧
      LaneOp s (.vcmp k d a b t c) d w 2 fun n =>
        (ones (fCmp (ltFmt t) c (x n) (y n)).1, (fCmp (ltFmt t) c (x n) (y n)).2)) ∧
    (ltFloat t = false → LaneOp s (.vminmax k d a b t op) d w 2 (fun n => (match op with
        | .minNum => if sx n ≤ sy n then x n else y n
        | .maxNum => if sx n ≤ sy n then y n else x n
        | .minimum => min (x n) (y n)
        | .maximum => max (x n) (y n), noFlags)) ∧
      LaneOp s (.vcmp k d a b t c) d w 2 fun n => (ones (match c with
        | .eq => x n = y n | .ne => x n != y n | .lt => decide (sx n < sy n) | .le => decide (sx n ≤ sy n)
        | .ltn => decide (x n < y n) | .len => decide (x n ≤ y n) | .un => false), noFlags)) ∧
    (src ≠ .x128 → dst ≠ .x128 → ws ≤ wd →
      LaneOp s (.vcvt k d a dst src r) d wd 3 fun i => cv (part % (wd / ws) * (2048 / wd) + i)) ∧
    (src ≠ .x128 → dst ≠ .x128 → wd < ws → (∀ j, j < 2048 / ws → trapsOn (enables s.act0) (cv j).2 = false) →
      Completes s (.vcvt k d a dst src r) fun g =>
        resultV (addFlags s (allFlags ((List.range (2048 / ws)).map cv))) d (ofLanes wd fun i =>
          if base ≤ i ∧ i < base + 2048 / ws then (cv (i - base)).1 else lane wd (readV s.act0 d) i) 3 g) ∧
    (src ≠ .x128 → dst ≠ .x128 → wd < ws → ∀ n, n < 2048 / ws → trapsOn (enables s.act0) (cv n).2 = true →
      (∀ j, j < n → trapsOn (enables s.act0) (cv j).2 = false) →
      Traps s (.vcvt k d a dst src r) 0x12 0 (flagsNat (allFlags ((List.range (2048 / ws)).map cv)) + 256 * (base + n))) ∧
    (∀ f, (dst = .f32 ∧ f = fmtF32) ∨ (dst = .f64 ∧ f = fmtF64) →
      let q := x128OfVec (readV s.act0 a)
      let v := readout 125 f (fpMode s r) q.sum q.e
      (trapsOn (enables s.act0) v.2 = false → Completes s (.vcvt k d a dst .x128 r) fun g =>
        resultV (addFlags s v.2) d (ofLanes wd fun i => if i = 0 then v.1 else lane wd (readV s.act0 d) i) 3 g) ∧
      (trapsOn (enables s.act0) v.2 = true → Traps s (.vcvt k d a dst .x128 r) 0x12 0 (flagsNat v.2)))) ∧
  (
    ∀ (f : FFmt) (a b : Nat) (c : CmpOp) (op : MinMaxOp), let x := decodeF f a; let y := decodeF f b
      let some_ := isNaN x || isNaN y
      let signals := isSNaN x || isSNaN y
      let below := fun (x y : FVal) => xval x < xval y ∨ (xval x = xval y ∧ signOf x = true ∧ signOf y = false)
      let low := op = .minNum ∨ op = .minimum
      let number := op = .minNum ∨ op = .maxNum
      (some_ = true → (fCmp f c a b).1 = decide (c = .ne ∨ c = .un)) ∧
      (fCmp f c a b).2 = flagNV (signals || (some_ && decide (c = .lt ∨ c = .le ∨ c = .ltn ∨ c = .len))) ∧
      (some_ = false → ((fCmp f .eq a b).1 = true ↔ xval x = xval y) ∧ ((fCmp f .ne a b).1 = true ↔ xval x ≠ xval y) ∧
        ((fCmp f .lt a b).1 = true ↔ xval x < xval y) ∧ ((fCmp f .le a b).1 = true ↔ xval x ≤ xval y) ∧
        (fCmp f .un a b).1 = false) ∧
      (fMinMax f op a b).2 = flagNV signals ∧
      (isNaN x = true → isNaN y = true ∨ ¬ number → (fMinMax f op a b).1 = quieten f a) ∧
      (isNaN x = true → isNaN y = false → number → (fMinMax f op a b).1 = b) ∧
      (isNaN x = false → isNaN y = true → (fMinMax f op a b).1 = if number then a else quieten f b) ∧
      (some_ = false → below x y → (fMinMax f op a b).1 = if low then a else b) ∧
      (some_ = false → below y x → (fMinMax f op a b).1 = if low then b else a) ∧
      (some_ = false → ¬ below x y → ¬ below y x → (fMinMax f op a b).1 = a)) ∧
  (
    ∀ (f g : FFmt) (mode : Mode) (sg sg' : Bool) (w w' n : Nat), f ∈ floatFormats → g ∈ floatFormats → 0 < w → 0 < w' →
      let x := decodeF f n
      let fin := ∃ q m e, x = .fin q m e
      let int : Int := if sg then sextInt w n else ((n % 2 ^ w : Nat) : Int)
      let lo : Int := if sg' then -2 ^ (w' - 1) else 0
      let hi : Int := if sg' then 2 ^ (w' - 1) - 1 else 2 ^ w' - 1
      let toF := convert (.flt f) (.flt g) mode n
      let toI := convert (.flt f) (.int sg' w') mode n
      let ofI := convert (.int sg w) (.flt g) mode n
      let below := fun (h : FFmt) => if h.e4m3 then 1 else h.fbits - 1
      let wider := f.ebits + f.fbits < g.ebits + g.fbits
      (∀ q u p, x = .nan q u p → toF.2 = flagNV (!u) ∧ (g.e4m3 = true → toF.1 = withSign g q 0x7F) ∧
        (g.e4m3 = false → decodeF g toF.1 =
          .nan q true (if below g ≤ below f then p / 2 ^ (below f - below g) else p * 2 ^ (below g - below f)))) ∧
      (∀ q, x = .inf q → wider → toF = (withSign g q (infMag g), noFlags)) ∧
      (∀ q, x = .inf q → ¬ wider → ReadsOut g mode { nan := false, pinf := !q, ninf := q } 0 toF) ∧
      (fin → fval x = 0 → toF = (withSign g (signOf x) 0, noFlags)) ∧ (fin → fval x ≠ 0 → Rounded g mode (fval x) toF) ∧
      (isNaN x = true → toI = (0, flagNV true)) ∧ (∀ q, x = .inf q → toI = (wrapNat w' (if q then lo else hi), flagNV true)) ∧
      (fin → ∃ k, IntChosen mode (fval x) k ∧ toI = if lo ≤ k ∧ k ≤ hi then
          (wrapNat w' k, { nv := false, dz := false, of := false, uf := false, nx := decide ((k : ℚ) ≠ fval x) })
        else (wrapNat w' (if k < lo then lo else hi), flagNV true)) ∧
      (int = 0 → ofI = (0, noFlags)) ∧ (int ≠ 0 → Rounded g mode int ofI) ∧
      convert (.int sg w) (.int sg' w') mode n = (wrapNat w' (if mode = .sat then max lo (min hi int) else int), noFlags))

/-- R146, R147: VBIT acts on all 2048 bits; VSHIFT shifts each lane by the lane of vB modulo w. Latency 2, no flag.
R84, R85, R148-R151: VUNARY. ABS and NEG change the sign bit of a float and raise no flag, a NaN included; CLASS sets
the one bit of R149. GETEXP is the exact floor of the binary logarithm, minus infinity with DZ of a zero; RCPE and RSQE round the
reciprocal, and that of the root, to the nearest number of a 14-bit fraction, and that once into the format. -/
def Obligations.VectorBitsShiftsAndUnary : Prop :=
  (
    ∀ (s : State) (k : KSel) (d a b : VReg) (t : LaneType), let x := readV s.act0 a; let y := readV s.act0 b
      let w := ltWidth t
      let c := fun n => lane w y n % w
      let lanesOf := fun (i : Instr) (f : Nat → Nat) => VectorResult s i d (ofLanes w f) 2
      VectorResult s (.vbitAnd k d a b) d (x &&& y) 2 ∧ VectorResult s (.vbitOr k d a b) d (x ||| y) 2 ∧
      VectorResult s (.vbitXor k d a b) d (x ^^^ y) 2 ∧ VectorResult s (.vbitAndn k d a b) d (x &&& ~~~y) 2 ∧
      VectorResult s (.vbitNot k d a) d (~~~x) 2 ∧
      lanesOf (.vshiftShl k d a b t) (fun n => lane w x n <<< c n) ∧
      lanesOf (.vshiftShr k d a b t) (fun n => lane w x n >>> c n) ∧
      lanesOf (.vshiftSar k d a b t) (fun n => wrapNat w (sextInt w (lane w x n) / (2 ^ c n : Nat))) ∧
      lanesOf (.vshiftRotr k d a b t) (fun n => ((BitVec.ofNat w (lane w x n)).rotateRight (c n)).toNat)) ∧
  (
    ∀ (s : State) (k : KSel) (d a : VReg) (t : LaneType),
      let w := ltWidth t
      let x := lane w (readV s.act0 a)
      let lanesOf := fun (i : Instr) (f : Nat → Nat) => VectorResult s i d (ofLanes w f) 2
      (ltFloat t = true → lanesOf (.vunaryAbs k d a t) (fun n => x n &&& (2 ^ (w - 1) - 1)) ∧
        lanesOf (.vunaryNeg k d a t) (fun n => x n ^^^ 2 ^ (w - 1))) ∧
      (ltFloat t = false → lanesOf (.vunaryAbs k d a t) (fun n => wrapNat w (sextInt w (x n)).natAbs) ∧
        lanesOf (.vunaryNeg k d a t) (fun n => wrapNat w (-(x n : Int)))) ∧
      lanesOf (.vunaryClass k d a t) (fun n => 2 ^ (match decodeF (ltFmt t) (x n) with
        | .nan _ q _ => if q then 1 else 0
        | .inf neg => if neg then 2 else 9
        | .fin neg m e => if m = 0 then (if neg then 5 else 6)
          else if m < 2 ^ (ltFmt t).fbits ∧ e = emin (ltFmt t) - (ltFmt t).fbits then (if neg then 4 else 7)
          else if neg then 3 else 8)) ∧
      LaneOp s (.vunaryGetexp k d a t) d w 2 (fun n => fGetexp (ltFmt t) (x n)) ∧
      lanesOf (.vunaryClz k d a t) (fun n => if x n = 0 then w else w - 1 - Nat.log2 (x n)) ∧
      lanesOf (.vunaryPopc k d a t) (fun n => (List.range w).countP fun i => (x n).testBit i) ∧
      LaneOp s (.vunaryRcpe k d a t) d w 4 (fun n => fRcpe (ltFmt t) (x n)) ∧
      LaneOp s (.vunaryRsqe k d a t) d w 4 (fun n => fRsqe (ltFmt t) (x n))) ∧
  (
    ∀ (t : LaneType) (n : Nat), ltFloat t = true → let f := ltFmt t; let x := decodeF f n
      let fin := ∃ q m e, x = .fin q m e
      let dz : Flags := { nv := false, dz := true, of := false, uf := false, nx := false }
      let twice := fun (y : ℚ → Prop) (r : FRes) => ∃ v, IsF14 v ∧ y v ∧ Rounded f .rne v r
      (isNaN x = true → ∀ r ∈ [fGetexp f n, fRcpe f n, fRsqe f n], r = (quieten f n, flagNV (isSNaN x))) ∧
      (∀ q, x = .inf q → fGetexp f n = (infMag f, noFlags) ∧ fRcpe f n = (withSign f q 0, noFlags) ∧
        fRsqe f n = if q then (canonNaN f, flagNV true) else (0, noFlags)) ∧
      (fin → fval x = 0 → fGetexp f n = (withSign f true (infMag f), dz) ∧ fRcpe f n = (withSign f (signOf x) (infMag f), dz) ∧
        fRsqe f n = (withSign f (signOf x) (infMag f), dz)) ∧
      (fin → fval x ≠ 0 → FiniteBits f (fGetexp f n).1 ∧ (fGetexp f n).2 = noFlags ∧ ∃ k : Int,
        fval (decodeF f (fGetexp f n).1) = k ∧ (2 : ℚ) ^ k ≤ |fval x| ∧ |fval x| < (2 : ℚ) ^ (k + 1)) ∧
      (fin → fval x ≠ 0 → twice (fun v => ∀ z, IsF14 z → |v - 1 / fval x| ≤ |z - 1 / fval x|) (fRcpe f n)) ∧
      (fin → fval x < 0 → fRsqe f n = (canonNaN f, flagNV true)) ∧
      (fin → 0 < fval x → twice (fun v => 0 < v ∧ ∀ z, IsF14 z → (v < z → 4 ≤ fval x * (v + z) ^ 2) ∧
        (0 ≤ z → z < v → fval x * (v + z) ^ 2 ≤ 4)) (fRsqe f n)))

/-- R153: the lane operations; no flag is raised. VPERM has latency 3, the others 2. -/
def Obligations.VectorLaneOperations : Prop :=
  ∀ (s : State) (k : KSel) (d a b : Fin 32) (e : EWidth),
    let w := ewBits e
    let n := lanes w
    let x := lane w (readV s.act0 a)
    let y := lane w (readV s.act0 b)
    let z := lane w (readV s.act0 d)
    let sa := (readS s.act0 a).toNat
    let sb := (readS s.act0 b).toNat
    let lanesOf := fun (i : Instr) (lat : Nat) (f : Nat → Nat) => VectorResult s i d (ofLanes w f) lat
    lanesOf (.vsel k d a b e) 2 (fun i => if z i ≠ 0 then x i else y i) ∧
    lanesOf (.vbcast k d a e) 2 (fun _ => sa % 2 ^ w) ∧
    ScalarResult s (.vext k d a b e) d (BitVec.ofNat 64 (x (sb % n))) 2 ∧
    lanesOf (.vins k d a b e) 2 (fun i => if i = sb % n then sa % 2 ^ w else z i) ∧
    lanesOf (.vperm k d a b e) 3 (fun i => x (y i % n)) ∧
    lanesOf (.vslideup k d a b e) 2 (fun i => if sb ≤ i then x (i - sb) else 0) ∧
    lanesOf (.vslidedn k d a b e) 2 (fun i => if i + sb < n then x (i + sb) else 0) ∧
    lanesOf (.viota k d e) 2 (fun i => i)

/-- R24, R84, R85, R154, R155: VRED writes its result to lane 0 and clears every other lane, latency 6, FSUMX 8. An
integer reduction is the sum modulo 2^w, the signed minimum or maximum, or the bitwise combination of all lanes; a float
SUM, MIN or MAX follows the fixed pairwise tree, which halves the values by joining neighbours, the lower one as operand A, and
ORs the flags of every application; FSUMX is the exact sum of the lanes, never wrapped, rounded once; SCAN writes
every partial sum, a float one added lane by lane from lane 0, whose signalling NaN is quietened with NV. -/
def Obligations.VectorReductions : Prop :=
  ∀ (s : State) (k : KSel) (d a : VReg) (t : LaneType) (r : Rnd),
    let w := ltWidth t
    let vals := laneList w (readV s.act0 a)
    let f := ltFmt t
    let md := fpMode s r
    let tree := fun (g : Nat → Nat → FRes) => treeReduce g (Nat.log2 (lanes w)) vals
    let whole := fun (i : Instr) (x : Nat) => VectorResult s i d (BitVec.ofNat 2048 x) 6
    (∀ (g : Nat → Nat → FRes) (l : Nat → Nat) (n : Nat), let pair := fun (j : Nat) => g (l (2 * j)) (l (2 * j + 1))
      let r := treeReduce g n ((List.range (2 ^ n)).map fun j => (pair j).1)
      treeReduce g 0 [l 0] = (l 0, noFlags) ∧
      treeReduce g (n + 1) ((List.range (2 ^ (n + 1))).map l) = (r.1, orFlags (allFlags ((List.range (2 ^ n)).map pair)) r.2)) ∧
    vals = (List.range (2 ^ Nat.log2 (lanes w))).map (lane w (readV s.act0 a)) ∧
    (ltFloat t = true → SingleOp s (.vredSum k d a t r) d 6 (tree (fAdd f md)) ∧
      SingleOp s (.vredMin k d a t r) d 6 (tree (fMinMax f .minNum)) ∧
      SingleOp s (.vredMax k d a t r) d 6 (tree (fMinMax f .maxNum)) ∧
      SingleOp s (.vredFsumx k d a t r) d 8 (fsumx t md (readV s.act0 a)) ∧
      ReadsOut f md { nan := vals.any fun v => isNaN (decodeF f v), pinf := vals.any fun v => decodeF f v = .inf false, ninf := vals.any fun v => decodeF f v = .inf true }
        (vals.map fun v => fval (decodeF f v)).sum (fsumx t md (readV s.act0 a)) ∧
      (∀ p : Nat → FRes, (let x := lane w (readV s.act0 a) 0
          p 0 = if isNaN (decodeF f x) then (quieten f x, flagNV (isSNaN (decodeF f x))) else (x, noFlags)) →
        (∀ n, p (n + 1) = fAdd f md (p n).1 (lane w (readV s.act0 a) (n + 1))) → LaneOp s (.vredScan k d a t r) d w 6 p)) ∧
    (ltFloat t = false → whole (.vredSum k d a t r) (vals.sum % 2 ^ w) ∧
      (∃ x ∈ vals, whole (.vredMin k d a t r) x ∧ ∀ y ∈ vals, sextInt w x ≤ sextInt w y) ∧
      (∃ x ∈ vals, whole (.vredMax k d a t r) x ∧ ∀ y ∈ vals, sextInt w y ≤ sextInt w x) ∧
      (∀ n : Nat, n < lanes w → ∀ g : Tag, Effective s (.vredScan k d a t r) g →
        ∃ u : Vec, exec (.vredScan k d a t r) s = .next (resultV s d u 6 g) ∧ lane w u n = (vals.take (n + 1)).sum % 2 ^ w)) ∧
    (∃ x, whole (.vredAnd k d a t) x ∧ ∀ i, x.testBit i = vals.all fun v => v.testBit i) ∧
    (∃ x, whole (.vredOr k d a t) x ∧ ∀ i, x.testBit i = vals.any fun v => v.testBit i) ∧
    (∃ x, whole (.vredXor k d a t) x ∧ ∀ i, x.testBit i = decide ((vals.countP fun v => v.testBit i) % 2 = 1))

/-- R91, R93, R94, R156-R159, R288: the exact accumulations. Each term is rounded to the grid alone, nearest even, VAL is kept
modulo 2^125 and the special bits join; XINIT starts a container, XADD adds two of one grid and traps XEXP on unequal ones,
XEXPP and XEXPS raise E alone, to the greatest exponent less its margin. Latency 6. A readout is one rounding of VAL * 2^E, a
zero +0, or the infinity or the NaN of the special bits. -/
def Obligations.ExactAccumulation : Prop :=
  (
  ∀ (s : State) (k : KSel) (d a b : Fin 32),
    let c := x128OfVec (readV s.act0 d)
    let x := x128OfVec (readV s.act0 a)
    let y := x128OfVec (readV s.act0 b)
    let va := readV s.act0 a
    let vb := readV s.act0 b
    let gives := fun (i : Instr) (z : X128) => VectorResult s i d (vecOfX128 z) 6
    gives (.vxaccP32 k d a b) (accumProducts .f32 c va vb) ∧ gives (.vxaccS32 k d a) (accumSingles .f32 c va) ∧
    gives (.vxaccP64 k d a b) (accumProducts .f64 c va vb) ∧ gives (.vxaccS64 k d a) (accumSingles .f64 c va) ∧
    gives (.xinit k d a) { sum := { v := 0, sp := {} }, e := (BitVec.ofNat 32 (readS s.act0 a).toNat).toInt } ∧
    (x.e = y.e → gives (.xadd k d a b) { sum := { v := (x.sum.v + y.sum.v) % 2 ^ 125, sp := {
      nan := x.sum.sp.nan || y.sum.sp.nan, pinf := x.sum.sp.pinf || y.sum.sp.pinf
      ninf := x.sum.sp.ninf || y.sum.sp.ninf } }, e := x.e }) ∧
    (x.e ≠ y.e → Traps s (.xadd k d a b) 0x18 0 (wrapNat 32 x.e + 2 ^ 32 * wrapNat 32 y.e)) ∧
    (maxExpProducts va vb = none → gives (.xexpp k d a b) c) ∧
    (∀ p, maxExpProducts va vb = some p → gives (.xexpp k d a b) { c with e := max c.e (p - 98) }) ∧
    (maxExpSingles va = none → gives (.xexps k d a) c) ∧
    (∀ p, maxExpSingles va = some p → gives (.xexps k d a) { c with e := max c.e (p - 99) })) ∧
  (
    ∀ (c : X128) (t : LaneType) (a b : Vec), t = .f32 ∨ t = .f64 →
      let w := ltWidth t
      let x := fun (i : Nat) => decodeF (ltFmt t) (lane w a i)
      let y := fun (i : Nat) => decodeF (ltFmt t) (lane w b i)
      (∃ f : Nat → Option FVal, (∀ i, i < lanes w → IsProduct (x i) (y i) (f i)) ∧
        ExactSum 125 c.e (lanes w) f c.sum (accumProducts t c a b).sum) ∧
      ExactSum 125 c.e (lanes w) (fun i => some (x i)) c.sum (accumSingles t c a).sum ∧
      (accumProducts t c a b).e = c.e ∧ (accumSingles t c a).e = c.e) ∧
  (
    ∀ (n m y : Nat) (e : Int) (f : FFmt) (mode : Mode) (z : XSum), 0 < n → f ∈ floatFormats →
      ReadsOut f mode z.sp (sextInt n z.v * (2 : ℚ) ^ e) (readout n f mode z e) ∧
      ExactSum 125 e 1 (fun _ => some (decodeF fmtF32 y)) (x128OfNat m).sum (x128OfNat (xadd32Container m e y)).sum ∧
      xadd32Container m e y / 2 ^ 128 = m / 2 ^ 128) ∧
  (
    ∀ (a b : Vec) (p : Int),
      let lg := fun (v : Vec) (i : Nat) (k : Int) => let x := decodeF fmtF32 (lane 32 v i)
        (∃ g m e, x = .fin g m e) ∧ (2 : ℚ) ^ k ≤ |fval x| ∧ |fval x| < (2 : ℚ) ^ (k + 1)
      (maxExpSingles a = some p → (∃ i, i < 64 ∧ lg a i p) ∧ ∀ i j, i < 64 → lg a i j → j ≤ p) ∧
      (maxExpSingles a = none → ∀ i j, i < 64 → ¬ lg a i j) ∧
      (maxExpProducts a b = some p → (∃ i j k, i < 64 ∧ lg a i j ∧ lg b i k ∧ p = j + k) ∧
        ∀ i j k, i < 64 → lg a i j → lg b i k → j + k ≤ p) ∧
      (maxExpProducts a b = none → ∀ i j k, i < 64 → ¬ (lg a i j ∧ lg b i k)))

/-! ## Memory instructions (R41-R47, R121-R124, R279-R296) -/

/-- R42, R122, R241, R251-R253, R268-R270, R280, R384: LD and VLD. An access that R232, R43, R237 or R240 refuses traps with TADDR
its address; otherwise SEQ rises by 1 and the destination awaits the bytes as they stood before the bundle, with the slot's tag. A
scratch load reads the bytes at its device address; an ORDERED one finds, byte by byte, what its own stores of its phase have left,
else the value as of the phases before, which is the base value under each of those phases in turn: its stores, then its ATOMRs,
then its ATOMs; a byte that a sibling has written too is not promised. A STAGED load reads the tile's bytes that no sibling writes,
a live one the home under the core's lines, what has reached the core and its own stores. A live vector is read word by word, each
on its own, and a live read behind a FENCE of its own bundle after it, but for a word that a lower slot of the bundle accesses, of
which it keeps what stood before the bundle. No load changes a byte of memory but those of a STAGED tile that a sibling writes,
which are promised to nobody (log 11). A load that cannot be made yet stalls its bundle, an ORDERED one until it would be settled.
(Log 31: bytes with an uncorrectable error are not this case. Log 43: live words that may be read later, each on its own, what a
core reads early, that activations of one stamp that run side by side read at the home, and the words a lower slot of the bundle
accesses. Log 44: the lines a core holds, and the read behind a FENCE or LDACQ of its bundle. Log 71: which engine writes of its own
a load finds.) -/
def Obligations.PlainLoads : Prop :=
  (
  ∀ (s : State) (k : KSel) (d a : Fin 32) (w : LdW) (off : BitVec 8) (l : Located),
    let n := match w with | .i8 => 1 | .n8 => 1 | .i16 => 2 | .n16 => 2 | .i32 => 4 | .n32 => 4 | .i64 => 8
    let signed := match w with | .n8 => false | .n16 => false | .n32 => false | _ => true
    let ext := fun (x : Nat) => match w with
      | .i8 => (BitVec.ofNat 8 x).signExtend 64 | .i16 => (BitVec.ofNat 16 x).signExtend 64
      | .i32 => (BitVec.ofNat 32 x).signExtend 64 | _ => BitVec.ofNat 64 x
    let word := fun bs => vecOfWord (ext (natOfBytes bs))
    let lower := fun (v : State) (x m : Nat) => v.dev.liveq.any fun q =>
      kin q.who s.act0.key && decide (s.act0.seq.toNat ≤ q.seq) && touchesWords q x m
    let loads := fun (i : Instr) (n : Nat) (addr : Int) (d : Dest) (val : List Byte → Vec) (sg : Bool) =>
      (∀ x, locate s s.act0 addr n n .load false 0 = .error x → Traps s i x.code x.addr x.info) ∧
      (locate s s.act0 addr n n .load false 0 = .ok l →
        (∀ bs u, loadAt s s.dev0 s.act0 l n = some (bs, u) → badIn u.dev l.addr n = false →
          let f := fenced u.dev s.act0.key
          Completes s i fun t => awaitResult (bumpSeq u) d (val bs) t (if l.mode = .live ∧ (8 < n ∨ f = true) then
            .live (nextSeq u) (min n 8) ((List.range (max 1 (n / 8))).map fun j =>
              if lower u (l.addr + 8 * j) (min n 8) = true then none else some (l.addr + 8 * j, wrapNat 64 addr + 8 * j)) sg f
            else .ready)) ∧
        (loadAt s s.dev0 s.act0 l n = none → ∀ t, Effective s i t → ∃ u, exec i s = .next u ∧ u.iss.status = .stalled ∧
          u.dev = s.dev0 ∧ u.act.s = s.act0.s ∧ u.act.pc = s.act0.pc ∧ (l.mode = .ordered → u.act.hold = some .settled)) ∧
        (l.mode = .scratch → badIn s.dev l.addr n = false → Completes s i fun t =>
          awaitResult (bumpSeq s) d (val (memReadBytes s.dev0.mem l.addr n)) t .ready) ∧
        (∀ bs u, loadAt s s.dev0 s.act0 l n = some (bs, u) → bs.length = n ∧
          (l.mode = .ordered → ∀ j, j < n →
            let word := (l.addr + j) / 8 * 8
            let b := (l.addr + j) % 8
            let wrote := fun (h : Hist) => (h ∈ histOf s.dev0 word ∨
                ∃ q ∈ s.dev0.cellq, q.word = word ∧ kin q.who s.act0.key = true ∧ q.entry = h) ∧
              phaseOf h.stamp = phaseOf s.act0.stamp ∧ writesByte b h = true ∧
              unseenEngine s.dev0 (stampOfKey s.act0.key) (2 ^ 32) h = false
            let own := fun (h : Hist) => wrote h ∧ h.stamp.index = s.act0.stamp.index
            ((¬ ∃ h, own h) → bs[j]? = some (BitVec.ofNat 8 (prior s.dev0 word (phaseOf s.act0.stamp) / 2 ^ (8 * b)))) ∧
            (∀ h, own h → (∀ g, wrote g → g = h ∨ (g.stamp.index = h.stamp.index ∧ histLt g h = true)) →
              bs[j]? = some (BitVec.ofNat 8 (h.val / 2 ^ (8 * b))))) ∧
          (l.mode = .staged → ∀ j, j < n →
            siblingDid s.dev (runNum s.act0) s.act0.stamp (fun q => decide (1 ≤ q)) (l.addr + j) = false →
            bs[j]? = some (memRead s.dev0.mem (l.addr + j))) ∧
          (l.mode ≠ .staged → u.dev.mem = s.dev.mem) ∧
          (l.mode = .staged → memWf s.dev.mem = true → ∀ y, (l.addr ≤ y → y < l.addr + n →
            siblingDid s.dev (runNum s.act0) s.act0.stamp (fun q => decide (1 ≤ q)) y = false) →
            memRead u.dev.mem y = memRead s.dev.mem y) ∧
          (l.mode = .live → let c := liveCore s.act0
            bs = memReadBytes (ownOver s.dev0 s.act0.key (reachOver s.dev0.liveq c
              ((coreLines s.dev c).foldl (fun m q => memWriteBytes m q.1 q.2) s.dev0.mem))) l.addr n)))
    loads (.ld k d a w off) n ((readS s.act0 a).toNat + n * off.toInt) (.s d) word signed ∧
    loads (.vld k d a off) 256 ((readS s.act0 a).toNat + 256 * off.toInt) (.v d)
      (fun bs => BitVec.ofNat 2048 (natOfBytes bs)) false) ∧
  (
    ∀ (d : Dev) (word v b : Nat) (p q : Nat × Nat) (l : List Hist) (h : Hist), word % 8 = 0 → v < 2 ^ 64 → b < 8 →
      let base := word / 32 * 32
      let holds := fun (r : Nat × Nat) => ∃ j, j < 4 ∧ ∃ h ∈ histOf d (base + 8 * j), phaseOf h.stamp = r
      let stores := ∀ g ∈ l, ∃ m, g.op = .store m
      ((∀ r, phaseLt r p = true → ¬ holds r) → prior d word p = memReadNat d.mem word 8) ∧
      (holds q → phaseLt q p = true → (∀ r, holds r → phaseLt r p = true → r = q ∨ phaseLt r q = true) → prior d word p =
        applyPhase q (fun j => histOf d (base + 8 * j)) (fun j => prior d (base + 8 * j) q) ((word - base) / 8)) ∧
      ((∀ g ∈ histOf d base, phaseOf g.stamp = q → ∀ n o, g.op ≠ .atom .xadd32 n o) → ∀ w : Nat → Nat,
        applyPhase q (fun j => histOf d (base + 8 * j)) w ((word - base) / 8) = applyAtoms (ofPhase q (histOf d word))
          (applyAtomrs (ofPhase q (histOf d word)) (applyStores (ofPhase q (histOf d word)) (w ((word - base) / 8))))) ∧
      ((∀ g ∈ l, writesByte b g = false) → applyStores l v / 2 ^ (8 * b) % 256 = v / 2 ^ (8 * b) % 256) ∧
      (h ∈ l → writesByte b h = true → (∀ g ∈ l, writesByte b g = true → g = h ∨ histLt g h = true) →
        applyStores l v / 2 ^ (8 * b) % 256 = h.val / 2 ^ (8 * b) % 256) ∧
      (stores → applyAtomrs l v = v ∧ applyAtoms l v = v) ∧
      (∀ op n o, h.op = .atomr op n o → applyAtomrs [h] v = atomWord op n o v h.val) ∧
      (∀ op n o, h.op = .atom op n o → op ≠ .xadd32 → (∀ c, op ≠ .cas c) → op ≠ .fetchadd → op ≠ .fetchmin → op ≠ .fetchmax →
        op ≠ .swap → n = 32 ∨ n = 64 → applyAtoms [h] v = atomWord op n o v h.val))

/-- R43, R44, R122, R189, R241, R247, R248, R263, R268, R280: ST and VST. An access that is refused traps; otherwise SEQ rises by 1
and the data taken at issue are stored, in scratch at once, in a STAGED tile at once where no sibling of the phase has touched the
byte, in ORDERED memory as one entry for each word touched, with the mask of the bytes it writes, on its way to the word's cell, in
live memory as one access for each word on its way to its home, or held while the activation is speculative; no other register
changes. A store that finds no cell stalls its bundle. (Log 43: live stores.) -/
def Obligations.PlainStores : Prop :=
  (
  ∀ (s : State) (k : KSel) (d a : Fin 32) (w : StW) (off : BitVec 8) (l : Located),
    let n := match w with | .i8 => 1 | .i16 => 2 | .i32 => 4 | .i64 => 8
    let stores := fun (i : Instr) (n : Nat) (addr : Int) (x : Nat) =>
      (∀ x, locate s s.act0 addr n n .store true 0 = .error x → Traps s i x.code x.addr x.info) ∧
      (locate s s.act0 addr n n .store true 0 = .ok l →
        (∀ u, storeAt s s.act0 l (wrapNat 64 addr) (nextSeq s) 0 (bytesOfNat n x) = some u →
          Completes s i fun _ => bumpSeq u) ∧
        (storeAt s s.act0 l (wrapNat 64 addr) (nextSeq s) 0 (bytesOfNat n x) = none → ∀ t, Effective s i t →
          exec i s = .next (stallEntry s)) ∧
        (l.mode = .scratch → Completes s i fun _ =>
          bumpSeq { s with dev := { s.dev with mem := memWriteBytes s.dev.mem l.addr (bytesOfNat n x) } }) ∧
        (l.mode = .live → Completes s i fun _ => bumpSeq ((List.range (max 1 (n / 8))).foldl (fun v j =>
          issueLive v s.act0 (nextSeq s) (l.addr + 8 * j) (.store (((bytesOfNat n x).drop (8 * j)).take 8))) s)) ∧
        (∀ u, storeAt s s.act0 l (wrapNat 64 addr) (nextSeq s) 0 (bytesOfNat n x) = some u →
          (l.mode = .staged → memWf s.dev.mem = true → u.act = s.act ∧ ∀ y, (l.addr ≤ y → y < l.addr + n →
              siblingDid s.dev (runNum s.act0) s.act0.stamp (fun _ => true) y = false) →
            memRead u.dev.mem y = memRead (memWriteBytes s.dev.mem l.addr (bytesOfNat n x)) y) ∧
          (l.mode = .ordered → ∃ es : List CellReq, u = { s with dev := { s.dev with cellq := s.dev.cellq ++ es } } ∧
            es.length = (l.addr + n - 1) / 8 + 1 - l.addr / 8 ∧ ∀ j q, es[j]? = some q →
              ∃ m, q.word = l.addr / 8 * 8 + 8 * j ∧ q.run = runNum s.act0 ∧ q.who = s.act0.key ∧
                q.entry.stamp = s.act0.stamp ∧ q.entry.seq = nextSeq s ∧ q.entry.op = .store m ∧ ∀ b, b < 8 →
                  let y := q.word + b
                  m.getLsbD b = decide (l.addr ≤ y ∧ y < l.addr + n) ∧
                  (l.addr ≤ y → y < l.addr + n → q.entry.val / 2 ^ (8 * b) % 256 = x / 2 ^ (8 * (y - l.addr)) % 256))))
    stores (.st k d a w off) n ((readS s.act0 a).toNat + n * off.toInt) (readS s.act0 d).toNat ∧
    stores (.vst k d a off) 256 ((readS s.act0 a).toNat + 256 * off.toInt) (readV s.act0 d).toNat) ∧
  (
    ∀ (s : State) (a b : Act) (seq addr : Nat) (op : LiveOp),
      (holdsBack s a = false → issueLive s a seq addr op = { s with dev := { s.dev with liveq := s.dev.liveq ++ [{
        who := a.key, seq := seq, addr := addr, op := op, core := actCore a, reach := 0, released := false, unit := .slot, counts := none }] } }) ∧
      (holdsBack s a = true → findAct s a.key = some b → findAct (issueLive s a seq addr op) a.key =
        some { b with held := b.held ++ [{ seq := seq, op := .live addr op, core := actCore a }] }))

/-- R45-R47, R124, R281: FBY on ORDERED words. The destination awaits the value as of the phases before, the old state,
whatever the activation itself has stored, and the new state becomes an entry of the phase; SEQ rises by 1. -/
def Obligations.FollowedBy : Prop :=
  ∀ (s : State) (k : KSel) (d a b : Fin 32) (l : Located), let x : Int := (readS s.act0 a).toNat
    let fby := fun (i : Instr) (n : Nat) (d : Dest) (new : Nat) =>
      (∀ x', locate s s.act0 x n n .fby true 0 = .error x' → Traps s i x'.code x'.addr x'.info) ∧
      (locate s s.act0 x n n .fby true 0 = .ok l → l.mode = .ordered → ∀ bs u v, loadAt s s.dev0 s.act0 l n = some (bs, u) →
        storeAt u u.act0 l (wrapNat 64 x) (nextSeq u) 0 (bytesOfNat n new) = some v → badIn v.dev l.addr n = false →
        Completes s i fun t => awaitResult (bumpSeq v) d (vecOfBytes ((List.range (n / 8)).flatMap fun j =>
          bytesOfNat 8 (prior s.dev0 (l.addr + 8 * j) (phaseOf s.act0.stamp)))) t .ready)
    fby (.fbyScalar k d a b) 8 (.s d) (readS s.act0 b).toNat ∧ fby (.fbyVector k d a b) 256 (.v d) (readV s.act0 b).toNat

/-- R268, R279, R282-R284: VLDS, VSTS, VGATH and VSCAT check their lanes upward and trap on the first that fails, with the
lane in TINFO. Otherwise SEQ rises by 1 once, in scratch, in tensors and in windows alike: a gather's destination awaits its
lanes, read upward as memory stood before the bundle, live lanes each on its own but where a lower slot of the bundle accesses their
word, and a scatter stores its lanes upward, so that
of two lanes on one byte the higher remains. A gather or scatter of which a lane cannot be made yet stalls its bundle.
(Log 43: live lanes that may be read later, each on its own, and the words a lower slot of the bundle accesses. Log 44: the read behind a FENCE or LDACQ of its bundle.) -/
def Obligations.StridedAndIndexed : Prop :=
  ∀ (s : State) (k : KSel) (d a b : Fin 32) (w : EWidth),
    let n := ewBits w / 8
    let m := 256 / n
    let stride := fun (i : Nat) => ((readS s.act0 a).toNat : Int) + i * (readS s.act0 b).toInt
    let index := fun (i : Nat) => ((readS s.act0 a).toNat : Int) + lane (ewBits w) (readV s.act0 b) i * n
    let at_ := fun (f : Nat → Int) (kd : AccKind) (wr : Bool) (i : Nat) => locate s s.act0 (f i) n n kd wr i
    let fails := fun (i : Instr) (f : Nat → Int) (kd : AccKind) (wr : Bool) =>
      ∀ j, j < m → ∀ x, at_ f kd wr j = .error x → (∀ j', j' < j → ∃ l, at_ f kd wr j' = .ok l) →
        Traps s i x.code x.addr x.info
    let stalls := fun (i : Instr) => ∀ t, Effective s i t → ∃ u, exec i s = .next u ∧ u.iss.status = .stalled ∧ u.dev = s.dev0
    let lower := fun (v : State) (x : Nat) => v.dev.liveq.any fun q =>
      kin q.who s.act0.key && decide (s.act0.seq.toNat ≤ q.seq) && touchesWords q x n
    let gathers := fun (i : Instr) (f : Nat → Int) => fails i f .load false ∧
      ∀ g : Nat → Located, (∀ j, j < m → at_ f .load false j = .ok (g j)) →
        (∀ (u : Nat → State) (bs : Nat → List Byte), u 0 = s →
          (∀ j, j < m → loadAt (u j) s.dev0 s.act0 (g j) n = some (bs j, u (j + 1))) →
          (∀ j, j < m → badIn (u m).dev (g j).addr n = false) →
          Completes s i fun t => awaitResult (bumpSeq (u m)) (.v d) (ofLanes (8 * n) fun j => natOfBytes (bs j)) t
            (if ∃ j, j < m ∧ (g j).mode = .live then .live (nextSeq (u m)) n
              ((List.range m).map fun j => if (g j).mode = .live ∧ lower (u m) (g j).addr = false then
                some ((g j).addr, wrapNat 64 (f j)) else none)
              false (fenced (u m).dev s.act0.key) else .ready)) ∧
        (∀ (u : Nat → State) (bs : Nat → List Byte) (j : Nat), u 0 = s → j < m →
          (∀ j', j' < j → loadAt (u j') s.dev0 s.act0 (g j') n = some (bs j', u (j' + 1))) →
          loadAt (u j) s.dev0 s.act0 (g j) n = none → stalls i) ∧
        ((∀ j, j < m → (g j).mode = .scratch ∧ badIn s.dev (g j).addr n = false) → Completes s i fun t =>
          awaitResult (bumpSeq s) (.v d) (ofLanes (8 * n) fun j => natOfBytes (memReadBytes s.dev0.mem (g j).addr n)) t .ready)
    let scatters := fun (i : Instr) (f : Nat → Int) => fails i f .store true ∧
      ∀ g : Nat → Located, (∀ j, j < m → at_ f .store true j = .ok (g j)) →
        let put := fun (u : State) (j : Nat) => storeAt u s.act0 (g j) (wrapNat 64 (f j)) (nextSeq s) j
          (bytesOfNat n (lane (8 * n) (readV s.act0 d) j))
        (∀ u : Nat → State, u 0 = s → (∀ j, j < m → put (u j) j = some (u (j + 1))) → Completes s i fun _ => bumpSeq (u m)) ∧
        (∀ (u : Nat → State) (j : Nat), u 0 = s → j < m → (∀ j', j' < j → put (u j') j' = some (u (j' + 1))) →
          put (u j) j = none → stalls i) ∧
        ((∀ j, j < m → (g j).mode = .scratch) → Completes s i fun _ => bumpSeq { s with dev := { s.dev with
          mem := (List.range m).foldl (fun q j =>
            memWriteBytes q (g j).addr (bytesOfNat n (lane (8 * n) (readV s.act0 d) j))) s.dev.mem } })
    gathers (.vlds k d a b w) stride ∧ gathers (.vgath k d a b w) index ∧
    scatters (.vsts k d a b w) stride ∧ scatters (.vscat k d a b w) index

/-- R238, R285: LDT. Where the effective class of the target is none or above C, LATE with TADDR the address; otherwise
SEQ rises by 1 and the bytes land at the issue cycle + 40, 160, 400 or 1200, zero-extended, once they have come. -/
def Obligations.TimedLoads : Prop :=
  ∀ (s : State) (k : KSel) (d a : Fin 32) (c : LdtClass) (w : LdtW) (l : Located), let p := (readS s.act0 a).toNat
    let n := match w with | .byte => 1 | .half => 2 | .word => 4 | .double => 8 | .vector => 256
    let dst := match w with | .vector => Dest.v d | _ => Dest.s d
    let cls := match c with | .c1 => 1 | .c2 => 2 | .c3 => 3 | .c4 => 4
    let dist := match c with | .c1 => 40 | .c2 => 160 | .c3 => 400 | .c4 => 1200
    let i := Instr.ldt k d a c w
    (∀ x, locate s s.act0 p n n .timed false 0 = .error x → Traps s i x.code x.addr x.info) ∧
    (locate s s.act0 p n n .timed false 0 = .ok l →
      (effectiveClass s.act0 l = none → Traps s i 0x0B p (16 * cls)) ∧
      (∀ e, effectiveClass s.act0 l = some e → cls < e → Traps s i 0x0B p (e + 16 * cls)) ∧
      (∀ e bs u, effectiveClass s.act0 l = some e → e ≤ cls → loadAt s s.dev0 s.act0 l n = some (bs, u) →
        badIn s.dev0 l.addr n = false → Completes s i fun t =>
          let f : InFlight := { dest := dst, val := vecOfBytes bs, tag := t, due := u.act.adv + dist, issued := u.act.adv,
                                stale := tagIn u.iss.freed t, timed := true, arrived := false, memx := none }
          { bumpSeq u with act := { (bumpSeq u).act with inflight := u.act.inflight ++ [f] } }))

/-- R287-R289, R384: the ATOMs and XADD32 raise SEQ by 1 and no register takes a result. In scratch the value at sA is
replaced at once; in live memory the operation goes to the word's home, or is held; in ORDERED memory it becomes an entry;
in STAGED memory it is performed at once where no sibling of the phase has made another kind of access to the bytes it writes, the
first 16 of an XADD32's container, nor written the exponent that an XADD32 reads at bytes 16-19. Bytes with an uncorrectable error that
are read at issue, in scratch or STAGED memory, are MEMX.
(Log 43: at issue. Log 58: MEMX of the bytes an ATOM reads. Log 74: an XADD32 in STAGED memory.) -/
def Obligations.AtomicsWithoutResult : Prop :=
  ∀ (s : State) (k : KSel) (a b : SReg) (w : AtomW) (l : Located), let p := (readS s.act0 a).toNat
    let bits := match w with | .w32 => 32 | .w64 => 64
    let o := (readS s.act0 b).toNat % 2 ^ bits
    let mem := fun m => { s with dev := { s.dev with mem := m } }
    let acts := fun (i : Instr) (op : AtomOp) (bits n nw o : Nat) (f : Nat → Nat) =>
      let new := memWriteBytes s.dev.mem l.addr (bytesOfNat nw (f (memReadNat s.dev.mem l.addr n)))
      (∀ x, locate s s.act0 p n n .atom true 0 = .error x → Traps s i x.code x.addr x.info) ∧
      (locate s s.act0 p n n .atom true 0 = .ok l →
        (l.mode = .scratch ∨ l.mode = .staged → badIn s.dev0 l.addr n = true → Traps s i 0x19 p (memLevel l.addr)) ∧
        (l.mode = .scratch → badIn s.dev0 l.addr n = false → Completes s i fun _ => bumpSeq (mem new)) ∧
        (l.mode = .live → Completes s i fun _ => bumpSeq (issueLive s s.act0 (nextSeq s) l.addr (.atom op bits o))) ∧
        (l.mode = .ordered → (∀ u, sendEntry s s.act0 (l.addr / 8 * 8) (p / 8 * 8) (nextSeq s) 0
            (.atom op bits (l.addr % 8)) o = some u → Completes s i fun _ => bumpSeq u) ∧
          (sendEntry s s.act0 (l.addr / 8 * 8) (p / 8 * 8) (nextSeq s) 0 (.atom op bits (l.addr % 8)) o = none →
            ∀ t, Effective s i t → exec i s = .next (stallEntry s))) ∧
        (l.mode = .staged → badIn s.dev0 l.addr n = false → memWf s.dev.mem = true → (∀ x, l.addr ≤ x → x < l.addr + nw →
            siblingDid s.dev (runNum s.act0) s.act0.stamp (fun q => q != stagedKind op bits) x = false) →
          (op = .xadd32 → ∀ x, l.addr + 16 ≤ x → x < l.addr + 20 →
            siblingDid s.dev (runNum s.act0) s.act0.stamp (fun q => decide (1 ≤ q)) x = false) →
          ∀ t, Effective s i t → ∃ u, exec i s = .next u ∧ u.act = (bumpSeq s).act ∧
            ∀ x, memRead u.dev.mem x = memRead new x))
    let sgn := fun x => sextInt bits x
    let atom := fun (i : Instr) (op : AtomOp) (f : Nat → Nat) => acts i op bits (bits / 8) (bits / 8) o f
    atom (.atomAdd k a b w) .add (fun m => (m + o) % 2 ^ bits) ∧
    atom (.atomMin k a b w) .min (fun m => if sgn m ≤ sgn o then m else o) ∧
    atom (.atomMax k a b w) .max (fun m => if sgn m ≤ sgn o then o else m) ∧
    atom (.atomMinn k a b w) .minn (fun m => min m o) ∧ atom (.atomMaxn k a b w) .maxn (fun m => max m o) ∧
    atom (.atomAnd k a b w) .and (fun m => m &&& o) ∧ atom (.atomOr k a b w) .or (fun m => m ||| o) ∧
    atom (.atomXor k a b w) .xor (fun m => m ^^^ o) ∧
    acts (.xadd32 k a b) .xadd32 256 32 16 ((readS s.act0 b).toNat % 2 ^ 32) (fun m =>
      xadd32Container m (sextInt 32 (m / 2 ^ 128)) ((readS s.act0 b).toNat % 2 ^ 32))

/-- R290, R291: the ATOMRs raise SEQ by 1. In scratch the old value goes to sD, which awaits it, and the memory is
replaced at once; a CAS writes sB where memory holds the low bits of the old sD. In live memory the operation goes to the
word's home, and sD awaits what it finds there; that of a speculative activation stalls. In ORDERED memory an entry goes to the
cell and sD awaits the cell's answer; above the ridge it also leaves a reader record, without room for which it stalls. An
ATOMR in STAGED memory raises PROT.
(Log 43: scratch words are read and replaced at issue. Log 2: a scratch word is read behind the lower slots of the bundle.) -/
def Obligations.AtomicsWithResult : Prop :=
  ∀ (s : State) (k : KSel) (d a b : SReg) (w : AtomW) (l : Located) (r : Run) (ten : Tensor) (e : TileEntry), let p := (readS s.act0 a).toNat
    let bits := match w with | .w32 => 32 | .w64 => 64
    let n := bits / 8
    let o := (readS s.act0 b).toNat % 2 ^ bits
    let c := (readS s.act0 d).toNat % 2 ^ bits
    let old := memReadNat s.dev.mem l.addr n
    let new := fun (f : Nat → Nat) => memWriteBytes s.dev.mem l.addr (bytesOfNat n (f old))
    let off := p % 2 ^ 44
    let staged := 2 ^ 63 ≤ p ∧ p < 3 * 2 ^ 62 ∧ p / 2 ^ 56 % 64 = 0 ∧ actRun s s.act0 = some r ∧
      imgTensor r.image (p / 2 ^ 44 % 4096) = some ten ∧ ten.order = .staged ∧ off + n ≤ ten.size ∧ p % n = 0 ∧ off / 65536 < ten.ntiles ∧
      ((r.tables.find? fun x => x.handle = ten.handle).bind fun x => tileOf x.view (off / 65536)) = some e ∧ e.v = true
    let acts := fun (i : Instr) (op : AtomOp) (f : Nat → Nat) =>
      let word := l.addr / 8 * 8
      let enters := fun (dv : Dev) => sendEntry { s with dev := dv } s.act0 word (p / 8 * 8) (nextSeq s) 0 (.atomr op bits (l.addr % 8)) o
      let entered := fun (dv : Dev) => (∀ u, enters dv = some u → Completes s i fun t =>
          awaitResult (bumpSeq u) (.s d) 0 t (.atomr word (nextSeq s))) ∧
        (enters dv = none → ∀ t, Effective s i t → exec i s = .next (stallEntry s))
      (∀ x, locate s s.act0 p n n .atomr true 0 = .error x → Traps s i x.code x.addr x.info) ∧
      (locate s s.act0 p n n .atomr true 0 = .ok l →
        (l.mode = .scratch → badIn s.dev l.addr n = false → Completes s i fun t =>
          awaitResult (bumpSeq { s with dev := { s.dev with mem := new f } }) (.s d) (BitVec.ofNat 2048 old) t .ready) ∧
        (l.mode = .live → holdsBack s s.act0 = true → ∀ t, Effective s i t → exec i s = .next (stall s)) ∧
        (l.mode = .live → holdsBack s s.act0 = false → Completes s i fun t => awaitResult (bumpSeq { s with dev := { s.dev with
          liveq := s.dev.liveq ++ [{ who := s.act0.key, seq := nextSeq s, addr := l.addr, op := .atomr op bits o, core := actCore s.act0, reach := 0, released := false, unit := .slot, counts := none }] } }) (.s d) 0 t (.liveAtomr (nextSeq s))) ∧
        (l.mode = .ordered → loadSettled s s.act0 l.addr = true → entered s.dev) ∧
        (l.mode = .ordered → loadSettled s s.act0 l.addr = false → readerRoom s.dev word s.act0.stamp s.act0.incarnation = true →
          entered (addReader s.dev word ((runOfKey s.act0.key).getD 0) s.act0.stamp s.act0.incarnation)) ∧
        (l.mode = .ordered → loadSettled s s.act0 l.addr = false → readerRoom s.dev word s.act0.stamp s.act0.incarnation = false →
          ∀ t, Effective s i t → exec i s = .next (stallLoad s .ordered))) ∧
      (staged → Traps s i 0x0A p 0)
    let sgn := fun x => sextInt bits x
    acts (.fetchadd k d a b w) .fetchadd (fun m => (m + o) % 2 ^ bits) ∧ acts (.swap k d a b w) .swap (fun _ => o) ∧
    acts (.cas k d a b w) (.cas c) (fun m => if m = c then o else m) ∧
    acts (.fetchmin k d a b w) .fetchmin (fun m => if sgn m ≤ sgn o then m else o) ∧
    acts (.fetchmax k d a b w) .fetchmax (fun m => if sgn m ≤ sgn o then o else m)

/-- R243, R267, R270, R292-R294, R296: LDACQ reads its word at its home, under the lines its core still holds, the stores that have
reached the core and the activation's own; at die scope the lines that miss a store of the die go first, at a wider scope all. Where the
activation is speculative, its own atomic on the word is on its way, or a store it would read is not yet read by every party and either
of the two is at device scope or wider, it stalls; behind a FENCE or LDACQ of its own bundle it takes its place among the live accesses on their way, and keeps the value
from before the bundle where a lower slot accesses its word. STREL is a
live store with its scope. FENCE has no effect on memory where everything before it is performed for its scope, and the core then
reads live bytes anew; otherwise it keeps its place among the live accesses on their way. PREF raises SEQ and fetches into the core's
L1 the lines of its range, 1,048,576 bytes at most, that lie in live or STAGED memory, a line that cannot be loaded being passed over;
no byte of memory and no line that holds bytes changes.
(Log 44: a PREF finds no room where the set of its line is full. Log 43: the time and the reach of a live access, what is read at the home while a handler runs, and the word a lower slot of the bundle accesses. Log 44: which lines a scope drops, what FENCE makes the core read anew, and an
LDACQ behind a FENCE of its bundle.) -/
def Obligations.LiveMemoryGroup : Prop :=
  ∀ (s : State) (k : KSel) (d a b : SReg) (c : Scope) (l : Located), let p := (readS s.act0 a).toNat
    let core := actCore s.act0
    let sees := liveCore s.act0
    let held := getCore s.dev core
    let dropped := if c = .core ∨ 32 ≤ core then s.dev else putCore s.dev core { held with
      l1 := if c = .die then held.l1.filter (fun q => q.1 ∉ held.l1Die) else [], l1Die := []
      l1Pref := if c = .die then held.l1Pref else [] }
    let bytes := fun (d : Dev) => memReadBytes (ownOver s.dev0 s.act0.key (reachOver s.dev0.liveq sees
      ((coreLines d sees).foldl (fun m q => memWriteBytes m q.1 q.2) s.dev0.mem))) l.addr 8
    let lower := s.dev.liveq.any fun q => kin q.who s.act0.key && decide (s.act0.seq.toNat ≤ q.seq) && touchesWords q l.addr 8
    let len := min ((readS s.act0 b).toNat % 2 ^ 32) 1048576
    let leads := fun (m : MemMode) (x : Nat) => ∃ y l', (y = p ∨ (y % 64 = 0 ∧ p < y)) ∧ y < p + len ∧
      locate s s.act0 y 1 1 .load false 0 = .ok l' ∧ l'.mode = m ∧ x / 64 = l'.addr / 64 ∧ x % 32 = 0
    let waits := liveBlocked s s.dev0 s.act0 || atomPending s.dev0 s.act0.key l.addr 8
    let behind := fenced s.dev s.act0.key
    let level := match c with | .core => 1 | .die => 2 | .device => 3 | .system => 3
    let narrow := s.dev0.liveq.any fun q => findsNarrow sees s.act0.key (nextSeq s) l.addr 8 q && (decide (level = 3) ||
      match q.op with | .release _ .device => true | .release _ .system => true | _ => false)
    let i := Instr.ldacq k d a c
    let made := { s with act := settleReads s.act }
    let free := holdsBack made s.act0 = false ∧ engineLeft s.dev s.act0.key = false ∧
      ∀ q ∈ s.dev.liveq, kin q.who s.act0.key = true → level ≤ q.reach ∧ reaches core q = true
    (∀ x, locate s s.act0 p 8 8 .liveOnly false 0 = .error x → Traps s i x.code x.addr x.info) ∧
    (locate s s.act0 p 8 8 .liveOnly false 0 = .ok l →
      (waits = true → ∀ t, Effective s i t → exec i s = .next (stall s)) ∧
      (waits = false → behind = true → Completes s i fun t => awaitResult (bumpSeq { s with dev := { s.dev with
        liveq := s.dev.liveq ++ [{ who := s.act0.key, seq := nextSeq s, addr := l.addr, op := .acquire c, core := core, reach := 0, released := false, unit := .slot, counts := none }] } }) (.s d)
          (BitVec.ofNat 2048 (natOfBytes (bytes s.dev0))) t (.acquire (nextSeq s) p lower)) ∧
      (waits = false → behind = false → narrow = true → ∀ t, Effective s i t → exec i s = .next (stall s)) ∧
      (waits = false → behind = false → narrow = false → badIn s.dev l.addr 8 = false → Completes s i fun t =>
        awaitResult (bumpSeq { s with dev := dropped }) (.s d) (BitVec.ofNat 2048 (natOfBytes (bytes dropped))) t .ready)) ∧
    (∀ x, locate s s.act0 p 8 8 .liveOnly true 0 = .error x → Traps s (.strel k d a c) x.code x.addr x.info) ∧
    (locate s s.act0 p 8 8 .liveOnly true 0 = .ok l → Completes s (.strel k d a c) fun _ =>
      bumpSeq (issueLive s s.act0 (nextSeq s) l.addr (.release (bytesOfNat 8 (readS s.act0 d).toNat) c))) ∧
    (free → Completes s (.fence k c) fun _ => { made with dev := dropped }) ∧
    (¬ free → Completes s (.fence k c) fun _ => issueLive made s.act0 (nextSeq s) 0 (.fence c)) ∧
    (∀ t, Effective s (.pref k a b) t → ∃ u, exec (.pref k a b) s = .next u ∧ u.act = (bumpSeq s).act ∧ u.dev.mem = s.dev.mem ∧
      let now := getCore u.dev core
      let full := fun (x : Nat) => 16 ≤ (linesOfSet now x).length
      now.l1 = held.l1 ∧ (∀ x ∈ now.l1Pref, x ∈ held.l1Pref ∨ leads .live x) ∧
      (core < 32 → ∀ x, (leads .live x → x ∈ now.l1Pref ∨ (∃ q ∈ now.l1, q.1 = x) ∨ full x) ∧
        (leads .staged x → (∃ q ∈ now.l1Staged, q.1 = x) ∨ full x)))

/-- R43, R122, R231, R232, R237, R240, R442: where a pointer leads. A scratch access inside the extent and aligned is admitted
at the byte the activation's bank holds; at or beyond the extent it is WIN, misaligned ALIGN; window 11 is always WIN. The loft
window leads to the frames of the run in the vault named, as live memory. A handle that names no tensor of the run, a reserved bit
or an access beyond SIZE is WIN, an unmapped tile, or one at or above NTILES, XLAT, a tile without W, a task outside the tensor's read and write sets, or a kind of access that the mode does not admit
PROT.
(Log 41: the task judged is that of the stamp, for a handler activation too.) -/
def Obligations.PointerWindows : Prop :=
  ∀ (s : State) (a : Act) (n size align lane : Nat) (k : AccKind) (w : Bool), n < 2 ^ 64 → 0 < align →
    let found := locate s a n size align k w lane
    let err := fun (c : Nat) => found = .error { code := c, addr := n, info := lane }
    let ext := scratchExtent s a
    (n < 2 ^ 21 → n + size ≤ ext → n % align = 0 → k ≠ .liveOnly → k ≠ .fby →
      found = .ok { mode := .scratch, addr := scratchAddr a n, lc := 0 }) ∧
    (n < 2 ^ 62 → 2 ^ 21 ≤ n ∨ ext < n + size → err 0x07) ∧
    (n < 2 ^ 21 → n + size ≤ ext → n % align ≠ 0 → err 0x08) ∧
    (n < 2 ^ 21 → n + size ≤ ext → n % align = 0 → k = .liveOnly ∨ k = .fby → err 0x0A) ∧
    (3 * 2 ^ 62 ≤ n → err 0x07) ∧
    (∀ r, 2 ^ 63 ≤ n → n < 3 * 2 ^ 62 → actRun s a = some r →
      n / 2 ^ 56 % 64 ≠ 0 ∨ imgTensor r.image (n / 2 ^ 44 % 4096) = none → err 0x07) ∧
    (2 ^ 62 ≤ n → 0 < size → actRun s a = none → err 0x07) ∧
    (∀ r t, 2 ^ 63 ≤ n → n < 3 * 2 ^ 62 → n / 2 ^ 56 % 64 = 0 → actRun s a = some r →
      imgTensor r.image (n / 2 ^ 44 % 4096) = some t →
      let off := n % 2 ^ 44
      let e := (r.tables.find? (fun x => x.handle = t.handle)).bind fun x => tileOf x.view (off / 65536)
      (t.size < off + size → err 0x07) ∧
      (off + size ≤ t.size → n % align ≠ 0 → err 0x08) ∧
      (off + size ≤ t.size → n % align = 0 → t.ntiles ≤ off / 65536 →
        found = .error { code := 0x09, addr := n, info := lane + 2 ^ 32 * (off / 65536) }) ∧
      (off + size ≤ t.size → n % align = 0 → off / 65536 < t.ntiles →
        (e = none ∨ (∃ y, e = some y ∧ y.v = false) → found = .error { code := 0x09, addr := n, info := lane + 2 ^ 32 * (off / 65536) }) ∧
        (∀ y, e = some y → y.v = true → isWrite k w = true → y.w = false → err 0x0A) ∧
        (∀ y, e = some y → y.v = true → (isWrite k w = true → y.w = true) →
          taskMay t a.stamp.task (isWrite k w) = true → modeAdmits (modeOfOrder t.order) k = true →
          found = .ok { mode := modeOfOrder t.order, addr := frameAddr y.loft y.frame (off % 65536), lc := y.lc.toNat }) ∧
        (∀ y, e = some y → y.v = true →
          (isWrite k w = true → (∀ l, t.writers = some l → a.stamp.task ∉ l) → (t.writers ≠ none ∨ t.readers ≠ none ∨ t.order = .staged) → err 0x0A) ∧
          (isWrite k w = false → (∀ l, t.writers = some l → a.stamp.task ∉ l) → (∀ l, t.readers = some l → a.stamp.task ∉ l) →
            (t.writers ≠ none ∨ t.readers ≠ none ∨ t.order = .staged) → err 0x0A) ∧
          (k = .liveOnly → t.order ≠ .live → err 0x0A) ∧ (k = .fby → t.order ≠ .ordered → err 0x0A) ∧
          (k = .atomr → t.order = .staged → err 0x0A) ∧ (k = .timed ∨ k = .feed → t.order ≠ .staged → err 0x0A)))) ∧
    (∀ r, 2 ^ 62 ≤ n → n < 2 ^ 63 → actRun s a = some r →
      let off := n % 2 ^ 26
      let frames := windowFrames r (n / 2 ^ 26 % 32)
      (n / 2 ^ 31 % 2 ^ 31 ≠ 0 ∨ frames.length * 65536 < off + size → err 0x07) ∧
      (n / 2 ^ 31 % 2 ^ 31 = 0 → off + size ≤ frames.length * 65536 →
        (n % align ≠ 0 → err 0x08) ∧
        (n % align = 0 → k = .fby ∨ k = .timed ∨ k = .feed → err 0x0A) ∧
        (n % align = 0 → k ≠ .fby → k ≠ .timed → k ≠ .feed →
          found = .ok { mode := .live, addr := frameAddr true (frames.getD (off / 65536) 0) (off % 65536), lc := 0 })))

/-! ## Feeds (R312-R323) -/

/-- R44, R320-R323: a pop gives the oldest entry of the buffer to vD under interlock, two cycles at the earliest, and
advances the position; a push puts vD at the end of the buffer, or performs it at once where END stands in a lower slot, and then
stalls in a cycle in which its unit has moved an entry already. Unbound,
wrong direction, beyond the pattern, and a held failure trap FEED with their causes; an empty or full buffer stalls. No SEQ is
raised. (Log 46: the corners of a held failure.) -/
def Obligations.FeedPopsAndPushes : Prop :=
  ∀ (s u : State) (k : KSel) (d : VReg) (e : EReg) (f : Feed), s.act = s.act0 →
    let n := battenEntries f.batten
    let at_ := fun (g : Feed) => { s.act with feeds := s.act.feeds.set e.val (some g) }
    let feed := fun (i : Instr) (cause : Nat) => Traps s i 0x0D 0 (e.val * 65536 + cause)
    let failed := fun (i : Instr) (g : Feed) (y : Nat × Nat) => ∀ t, Effective s i t → exec i s = .next (slotTrap
      { s with act0 := { s.act0 with feeds := s.act0.feeds.set e.val (some g) } } 0x0D y.2 (e.val * 65536 + y.1 * 256 + 1))
    let stalls := fun (i : Instr) => ∀ t, Effective s i t → exec i s = .next (stall s)
    let pop := Instr.vldFeedPop k d e
    let push := Instr.vstFeedPush k d e
    let x : FeedEntry := { data := readV s.act0 d, fault := none }
    (feedOf s.act0 e = none → feed pop 2 ∧ feed push 2) ∧
    (feedOf s.act0 e = some f →
      (f.batten.out = true → feed pop 4) ∧ (f.batten.out = false → feed push 4) ∧
      (f.batten.out = false → n ≤ f.pos → feed pop 3) ∧
      (f.batten.out = false → f.pos < n → f.buf = [] → stalls pop) ∧
      (∀ x rest y, f.batten.out = false → f.pos < n → f.buf = x :: rest → x.fault = some y → failed pop { f with buf := [] } y) ∧
      (∀ x rest, f.batten.out = false → f.pos < n → f.buf = x :: rest → x.fault = none → Completes s pop fun t =>
        awaitResult { s with act := at_ { f with buf := rest, pos := f.pos + 1 } } (.v d) x.data t (.after (s.dev.cycle + 2))) ∧
      (∀ y, f.batten.out = true → f.fault = some y → failed push { f with fault := none } y) ∧
      (f.batten.out = true → f.fault = none → n ≤ f.pos → feed push 3) ∧
      (f.batten.out = true → f.fault = none → f.pos < n → 8 ≤ f.buf.length → stalls push) ∧
      (f.batten.out = true → f.fault = none → f.pos < n → f.buf.length < 8 →
        (s.iss.ctl ≠ .endAct → Completes s push fun _ =>
          { s with act := at_ { f with buf := f.buf ++ [x], pos := f.pos + 1 } }) ∧
        (s.iss.ctl = .endAct → s.dev.cycle < f.nextAt → stalls push) ∧
        (s.iss.ctl = .endAct → f.nextAt ≤ s.dev.cycle → writeEntries s.act0 f f.pos [x] s = (u, none) → Completes s push fun _ => u)))

/-- R317-R319, R321: FBIND, FUNBIND, FFLUSH and FSTAT. FBIND checks a 64-byte load, the feed number, the batten and its
target in this order, captures the batten, gives eD the slot's tag and raises SEQ; FUNBIND frees the unit once its pushed
entries are performed; FFLUSH empties an inbound buffer, keeps the position and raises SEQ; on an outbound feed with a held failure
FBIND, FUNBIND and FFLUSH trap FEED and the failure goes from the feed; FSTAT reads the map of R319.
(Log 46: a pop and an FFLUSH in one bundle.) -/
def Obligations.FeedGroup : Prop :=
  ∀ (s : State) (k : KSel) (d a : SReg) (e : EReg) (f : Feed) (l : Located) (bs : List Byte) (u : State) (b : Batten),
    s.act = s.act0 → s.iss.freed = [] →
    let p := (readS s.act0 a).toNat
    let set := fun (x : Act) (g : Option Feed) => { x with feeds := x.feeds.set e.val g }
    let eng := fun (c : Nat) => Traps s (.fbind k e a) 0x16 0 c
    let free := feedOf s.act0 e = none ∨ (feedOf s.act0 e = some f ∧ (f.batten.out = false ∨ (f.fault = none ∧ f.buf = [])))
    (free → ∀ x, locate s s.act0 p 64 64 .load false 0 = .error x →
      Traps s (.fbind k e a) x.code x.addr x.info) ∧
    (free → locate s s.act0 p 64 64 .load false 0 = .ok l → badIn s.dev l.addr 64 = false → loadNow s l 64 = some (bs, u) →
      (feedCount s s.act0 ≤ e.val → eng 9) ∧
      (e.val < feedCount s s.act0 → parseBatten bs = none → eng 10) ∧
      (e.val < feedCount s s.act0 → parseBatten bs = some b → feedTarget s s.act0 b.ptr = false → eng 11) ∧
      (e.val < feedCount s s.act0 → parseBatten bs = some b → feedTarget s s.act0 b.ptr = true →
        Completes s (.fbind k e a) fun t => { bumpSeq u with act := { set (bumpSeq u).act (some
          { raw := bs, batten := b, pos := 0, buf := [], seq := nextSeq u, bound := nextSeq u, fault := none, nextAt := 0 }) with
            eTag := s.act.eTag.set e.val t } })) ∧
    (feedOf s.act0 e = none → Completes s (.funbind k e) fun _ => s) ∧
    (feedOf s.act0 e = none → Traps s (.fflush k e) 0x0D 0 (e.val * 65536 + 2)) ∧
    (feedOf s.act0 e = none → ScalarResult s (.fstat k d e) d 0 1) ∧
    (feedOf s.act0 e = some f →
      (f.batten.out = false ∨ (f.fault = none ∧ f.buf = []) →
        Completes s (.funbind k e) fun _ => { s with act := set s.act none }) ∧
      (f.batten.out = true → f.fault = none → f.buf = [] → Completes s (.fflush k e) fun _ => s) ∧
      (f.batten.out = false → Completes s (.fflush k e) fun _ =>
        bumpSeq { s with act := set s.act (some { f with buf := [], seq := nextSeq s }) }) ∧
      (f.batten.out = true → f.fault = none → f.buf ≠ [] → ∀ t,
        (Effective s (.funbind k e) t → exec (.funbind k e) s = .next (stall s)) ∧
        (Effective s (.fflush k e) t → exec (.fflush k e) s = .next (stall s))) ∧
      (∀ y, f.batten.out = true → f.fault = some y → ∀ i ∈ [Instr.fbind k e a, .funbind k e, .fflush k e], ∀ t, Effective s i t →
        exec i s = .next (slotTrap { s with act0 := set s.act0 (some { f with fault := none }) } 0x0D y.2 (e.val * 65536 + y.1 * 256 + 1))) ∧
      (f.buf.length ≤ 8 → f.pos < 2 ^ 48 → ∃ x : Word, ScalarResult s (.fstat k d e) d x 1 ∧ x.getLsbD 63 = true ∧
        x.getLsbD 62 = f.batten.out ∧ x.getLsbD 61 = (f.fault.isSome || f.buf.any fun y => y.fault.isSome) ∧
        x.getLsbD 60 = decide (f.pos = battenEntries f.batten) ∧ (x.extractLsb' 56 4).toNat = fmt4Code f.batten.fmt ∧
        (x.extractLsb' 52 4).toNat = f.buf.length ∧ (x.extractLsb' 48 4).toNat = 0 ∧ (x.extractLsb' 0 48).toNat = f.pos))

/-! ## Tasks (R198, R203-R214, R221) -/

/-- R198, R204-R208: SPAWN and SPAWNC. A task number that is not a later task's is ENG cause 1, a count or an index range
beyond 2^24 cause 2, a reserved bit cause 3, a cell that is not the run's cause 4; an index that exists already is DUPST,
a share that rounds to 0 is WEIGHT. Otherwise the children's records appear, each with its stamp, its argument and the
share of the weight, and the spawner keeps what is left; on a false cell nothing is spawned.
(Log 66: the value in TINFO[63:8] of ENG.) -/
def Obligations.Spawning : Prop :=
  ∀ (s : State) (k : KSel) (d a b : SReg) (r : Run) (x : Task), actRun s s.act0 = some r → s.act = s.act0 →
    let word := (readS s.act0 d).toNat
    let task := word % 256
    let first := word / 256 % 2 ^ 24
    let n := (readS s.act0 a).toNat
    let m := s.act0.stamp.inst
    let eng := fun (i : Instr) (cause v : Nat) => Traps s i 0x16 0 (cause + v % 2 ^ 56 * 256)
    let both := fun (p : Instr → Prop) => p (.spawn k d a b) ∧ p (.spawnc k d a b)
    let good := imgTask r.image task = some x ∧ x.handler = false ∧ s.act0.task < task ∧ n ≤ 2 ^ 24 ∧ first + n ≤ 2 ^ 24
    let exists_ := fun (i : Nat) => ∃ y ∈ runActs s r.num, isHandler y = false ∧ y.stamp = ⟨m, task, i⟩
    let share := s.act0.weight.toNat / 2 / n
    let spawns := fun (i : Instr) (fac : List Factor) =>
      (n = 0 → Completes s i fun _ => s) ∧
      (∀ j, first ≤ j → j < first + n → exists_ j → (∀ j', first ≤ j' → j' < j → ¬ exists_ j') →
        Traps s i 0x0F 0 (j + task * 2 ^ 24)) ∧
      (0 < n → (∀ j, first ≤ j → j < first + n → ¬ exists_ j) → share = 0 → Traps s i 0x11 0 s.act0.weight.toNat) ∧
      (0 < n → (∀ j, first ≤ j → j < first + n → ¬ exists_ j) → share ≠ 0 → ∀ t, Effective s i t → ∃ u, exec i s = .next u ∧
        u.act = { s.act with weight := s.act.weight - BitVec.ofNat 64 (n * share) } ∧ u.dev.mem = s.dev.mem ∧
        u.dev.others = s.dev.others ++ (List.range n).map fun j =>
          { Act.fresh (.ordinary r.num ⟨m, task, first + j⟩) ⟨m, task, first + j⟩ task (readS s.act0 b) (BitVec.ofNat 64 share) with
            factors := s.act.factors ++ fac, parent := some s.act.stamp, waitSince := s.dev.cycle })
    let cell := word / 2 ^ 48 % 256
    let p := word / 2 ^ 32 % 256
    let cond := word < 2 ^ 56 ∧ word / 2 ^ 46 % 4 = 0
    (imgTask r.image task = none → both fun i => eng i 1 task) ∧
    (imgTask r.image task = some x → x.handler = true ∨ task ≤ s.act0.task → both fun i => eng i 1 task) ∧
    (imgTask r.image task = some x → x.handler = false → s.act0.task < task → 2 ^ 24 < n → both fun i => eng i 2 n) ∧
    (imgTask r.image task = some x → x.handler = false → s.act0.task < task → n ≤ 2 ^ 24 → 2 ^ 24 < first + n →
      both fun i => eng i 2 (first + n)) ∧
    (good → 2 ^ 32 ≤ word → eng (.spawn k d a b) 3 word) ∧ (good → word < 2 ^ 32 → spawns (.spawn k d a b) []) ∧
    (good → ¬ cond → eng (.spawnc k d a b) 3 word) ∧ (good → cond → imgCond r.image cell = none → eng (.spawnc k d a b) 4 cell) ∧
    (good → cond → (imgCond r.image cell).isSome → (cellValue r cell m = some false → Completes s (.spawnc k d a b) fun _ => s) ∧
      (cellValue r cell m = some true → spawns (.spawnc k d a b) []) ∧
      (cellValue r cell m = none → spawns (.spawnc k d a b) [.spawn cell m p (word / 2 ^ 40 % 64)]))

/-- R176, R187, R209, R210: RESOLVE names the issuer's instant, RESOLVEN the next. A cell that is not the run's or a reserved bit is
ENG cause 4, an ahead cell resolved in its own instant PROT, one with a value already DUPRES. Otherwise SEQ rises by 1 and the cell
takes its value; a speculative activation's resolve is held, and one behind effects still held stalls. Taking the value, true or
false, trains the registers of the clocks the cell gates and the site entries of the SPAWNCs that used it, unless pinned, by an
eighth of the distance, and no other. In the core cycle of a resolution the distributors go by the likelihoods from before it, afterwards by the new ones (R185).
(Log 23: a held resolve that meets DUPRES. Log 48: one behind effects still held. Log 66: the value in TINFO[63:8] of ENG. Log 72: a cell
that several clocks name. Log 76: the likelihoods of a cycle.) -/
def Obligations.Resolving : Prop :=
  ∀ (s : State) (k : KSel) (a b : SReg) (r : Run) (c : Cond), actRun s s.act0 = some r →
    let x := (readS s.act0 a).toNat
    let cell := x % 256
    let v := decide (readS s.act0 b ≠ 0)
    let resolves := fun (i : Instr) (m : Nat) (mayAhead : Bool) =>
      (imgCond r.image cell = none ∨ 256 ≤ x → Traps s i 0x16 0 (4 + x % 2 ^ 56 * 256)) ∧
      (imgCond r.image cell = some c → x < 256 → c.ahead = true → mayAhead = false → Traps s i 0x0A cell (m % 2 ^ 48)) ∧
      (imgCond r.image cell = some c → x < 256 → c.ahead = false ∨ mayAhead = true →
        (2 ^ 48 ≤ m → Completes s i fun _ => bumpSeq s) ∧
        (m < 2 ^ 48 → speculative s s.act0 = true → Completes s i fun _ =>
          bumpSeq (pushHeld s s.act0.key { seq := nextSeq s, op := .resolve cell m v, core := actCore s.act0 })) ∧
        (m < 2 ^ 48 → speculative s s.act0 = false → s.act0.held ≠ [] → ∀ t, Effective s i t → exec i s = .next (stall s)) ∧
        (m < 2 ^ 48 → speculative s s.act0 = false → s.act0.held = [] → (cellValue r cell m).isSome → Traps s i 0x10 cell m) ∧
        (m < 2 ^ 48 → speculative s s.act0 = false → s.act0.held = [] → cellValue r cell m = none →
          Completes s i fun _ => bumpSeq (applyResolve s r.num cell m v)))
    let onClock := match imgTask r.image s.act0.task with
      | some t => decide (t.clock ∈ cellClocks r.image cell)
      | none => false
    resolves (.resolve k a b) s.act0.stamp.inst false ∧ resolves (.resolven k a b) (s.act0.stamp.inst + 1) onClock ∧
    (∀ (m : Nat) (o : Bool), cellValue r cell m = none → findRun s.dev r.num = some r → ∃ r',
      findRun (resolveCell s r.num cell m o).dev r.num = some r' ∧ cellValue r' cell m = some o ∧
      let learn := fun (y : BitVec 8 × Bool) => if y.2 then y else
        (BitVec.ofNat 8 (if o then y.1.toNat + (255 - y.1.toNat) / 8 else y.1.toNat - y.1.toNat / 8), y.2)
      ∀ j : Fin 64, ((cellClocks r.image cell).count j.val = 1 → r'.predictors[j.val] = learn r.predictors[j.val]) ∧
        (j.val ∉ cellClocks r.image cell → r'.predictors[j.val] = r.predictors[j.val]) ∧
        (r'.sites[j.val] = if ∃ x ∈ r.uses, x.cell = cell ∧ x.inst = m ∧ x.site = some j.val then learn r.sites[j.val]
          else r.sites[j.val]) ∧
        ((∀ w, r.likeWas = some w → w.cycle ≠ s.dev.cycle) → ∀ y, likelihood (runAsOf s.dev.cycle r') y = likelihood r y) ∧
        ∀ n, n ≠ s.dev.cycle → runAsOf n r' = r')

/-- R213, R221: LAUNCH. A reserved bit of the target is ENG cause 5, then the packet's 64 bytes and the status word are
checked. The packet is captured and SEQ rises by 1; a speculative activation's launch is held, another goes to the queue agent, which
decides it as the core cycle ends: a push to a queue of this device sends its outcome to the status word: STALE 2, FULL 4, INVALID 5,
or ACCEPTED 1 with the packet at the end of the ring. One to another device sets out with its handle and its packet, or is UNREACHABLE
6. A tear-down of the launching run before that drops the push and its status. A packet that cannot be read yet stalls the bundle.
(Log 44: the packet behind a FENCE of its bundle. Log 48: when the agent decides. Log 58: MEMX of the packet, and where it stands among
the checks. Log 66: the value in TINFO[63:8] of ENG.) -/
def Obligations.Launching : Prop :=
  ∀ (s : State) (k : KSel) (d a b : SReg) (l st : Located) (p : List Byte) (u : State), let t := readS s.act0 b
    let x := t.toNat
    let i := Instr.launch k d a b
    let good := x < 2 ^ 39 ∧ (x / 2 ^ 38 % 2 = 1 ∨ x / 2 ^ 32 % 64 = 0)
    let pk := locate s s.act0 (readS s.act0 a).toNat 64 64 .load false 0
    let sw := locate s s.act0 (readS s.act0 d).toNat 8 8 .liveOnly true 0
    (¬ good → Traps s i 0x16 0 (5 + x % 2 ^ 56 * 256)) ∧
    (good → ∀ e, pk = .error e → Traps s i e.code e.addr e.info) ∧
    (good → pk = .ok l → ∀ e, sw = .error e → Traps s i e.code e.addr e.info) ∧
    (good → pk = .ok l → sw = .ok st → badIn s.dev0 l.addr 64 = true → Traps s i 0x19 (readS s.act0 a).toNat (memLevel l.addr)) ∧
    (good → pk = .ok l → sw = .ok st → badIn s.dev0 l.addr 64 = false → loadNow s l 64 = some (p, u) → u.act0 = s.act0 →
      (holdsBack u u.act0 = true → Completes s i fun _ =>
        bumpSeq (pushHeld u u.act0.key { seq := nextSeq u, op := .launch p t st.addr, core := actCore u.act0 })) ∧
      (holdsBack u u.act0 = false → Completes s i fun _ => bumpSeq { u with dev := { u.dev with pushes := u.dev.pushes ++
        [{ who := s.act0.key, seq := nextSeq u, core := actCore s.act0, device := if 2 ^ 38 ≤ x then x / 2 ^ 32 % 64 else u.dev.number, handle := x % 2 ^ 32, packet := p, status := st.addr }] } })) ∧
    (good → pk = .ok l → sw = .ok st → badIn s.dev0 l.addr 64 = false → loadNow s l 64 = none →
      ∀ t, Effective s i t → exec i s = .next (stallLoad s l.mode)) ∧
    (∀ (v : State) (w : LaunchPush),
      let ends := fun (dv : Dev) => perform .tick v = .next { v with dev := { dv with pushes := [], cycle := v.dev.cycle + 1 } }
      let writes := fun (dv : Dev) (code : Nat) (c : Scope) => ends { dv with liveq := dv.liveq ++
        [{ who := w.who, seq := w.seq, addr := w.status, op := .release (bytesOfNat 8 code) c, core := w.core, reach := 0, released := false, unit := .agent, counts := none }] }
      (v.dev.pushes = [] → ends v.dev) ∧
      (v.dev.pushes = [w] → w.device = v.dev.number →
        (currentQueue v.dev w.handle = none → writes v.dev 2 .device) ∧
        (∀ q, currentQueue v.dev w.handle = some q →
          (q.capacity ≤ q.ring.length → writes v.dev 4 .device) ∧
          (q.ring.length < q.capacity → pktTypeOk w.packet = false ∨ pktReservedOk w.packet = false → writes v.dev 5 .device) ∧
          (q.ring.length < q.capacity → pktTypeOk w.packet = true → pktReservedOk w.packet = true →
            writes (putQueue v.dev { q with ring := q.ring ++ [w.packet] }) 1 .device))) ∧
      (v.dev.pushes = [w] → w.device ≠ v.dev.number →
        (reachable v.dev w.device = false → writes v.dev 6 .system) ∧
        (reachable v.dev w.device = true → ends { v.dev with remote := v.dev.remote ++ [w] })) ∧
      (∀ n r, runOfKey w.who = some n → findRun v.dev n = some r → w ∉ (tearDown v n).dev.pushes))

/-! ## Engine commands (R324-R335, R415-R424) -/

/-- R324, R327, R335: CPY and CPYSUM. The block is read as a 64-byte load, which is refused as one or stalls; a block that breaks its
rules is ENG cause 6; a misaligned or refused arrival word or record, or a TARGET of 0, cause 7, where lower phases cannot change the
TARGET any more, and a stall until then; a side that names no target cause 8; a full queue stalls. Otherwise SEQ rises by 1 and the command stands at the end of its die's queue, not started, with nothing copied yet, and its writes
are not seen before a WAIT on its arrival word (R271).
(Log 44: a block behind a FENCE of its bundle. Log 49: when TARGET is read, and as the own stores on their way leave it. Log 58: MEMX of
an arrival word with an uncorrectable error. Log 71: when an engine's writes are seen.) -/
def Obligations.CopyCommands : Prop :=
  ∀ (s : State) (k : KSel) (d a b : SReg) (l al rl : Located) (bs : List Byte) (u : State) (c : CopyBlock),
    let w := (readS s.act0 b).toNat
    let r := (readS s.act0 d).toNat
    let at_ := fun (i : Instr) (recs : Bool) (recd : Option Nat) =>
      let ready := locate s s.act0 (readS s.act0 a).toNat 64 64 .load false 0 = .ok l ∧ badIn s.dev l.addr 64 = false ∧
        loadNow s l 64 = some (bs, u)
      let known := targetKnown s al.addr = true
      let placed := enginePtr s w 16 = .ok (some al) ∧ (recs = true → enginePtr s r 32 = .ok (some rl))
      let target := targetOf (ownView (before s) s.act0) al.addr
      let words := placed ∧ known ∧ badIn s.dev al.addr 16 = false ∧ target ≠ 0
      let sides := copyTarget s s.act0 c.src false false = true ∧ copyTarget s s.act0 c.dst true true = true
      (∀ e, locate s s.act0 (readS s.act0 a).toNat 64 64 .load false 0 = .error e → Traps s i e.code e.addr e.info) ∧
      (locate s s.act0 (readS s.act0 a).toNat 64 64 .load false 0 = .ok l → badIn s.dev l.addr 64 = false →
        loadNow s l 64 = none → ∀ t, Effective s i t → exec i s = .next (stallLoad s l.mode)) ∧
      (ready → parseCopy bs = none → Traps s i 0x16 0 6) ∧
      (∀ e, ready → parseCopy bs = some c → enginePtr s w 16 = .error e → Traps s i e.code e.addr e.info) ∧
      (∀ e o, ready → parseCopy bs = some c → recs = true → enginePtr s w 16 = .ok o → enginePtr s r 32 = .error e →
        Traps s i e.code e.addr e.info) ∧
      (ready → parseCopy bs = some c → recs = false → enginePtr s w 16 = .ok none → Traps s i 0x16 0 7) ∧
      (∀ o, ready → parseCopy bs = some c → recs = true → enginePtr s w 16 = .ok none → enginePtr s r 32 = .ok o → Traps s i 0x16 0 7) ∧
      (ready → parseCopy bs = some c → recs = true → enginePtr s w 16 = .ok (some al) → enginePtr s r 32 = .ok none → Traps s i 0x16 0 7) ∧
      (ready → parseCopy bs = some c → placed → ¬ known → ∀ t, Effective s i t → exec i s = .next (stall s)) ∧
      (ready → parseCopy bs = some c → placed → known → badIn s.dev al.addr 16 = true → Traps s i 0x19 w (memLevel al.addr)) ∧
      (ready → parseCopy bs = some c → placed → known → badIn s.dev al.addr 16 = false → target = 0 → Traps s i 0x16 0 7) ∧
      (ready → parseCopy bs = some c → words → ¬ sides → Traps s i 0x16 0 8) ∧
      (ready → parseCopy bs = some c → words → sides → 64 ≤ dieQueue s.dev (actDie s.act0) →
        ∀ t, Effective s i t → exec i s = .next (stall s)) ∧
      (ready → parseCopy bs = some c → words → sides → dieQueue s.dev (actDie s.act0) < 64 → Completes s i fun _ =>
        let v := pushCopy u.dev (actDie s.act0) { who := s.act0.key, stamp := u.act0.stamp, seq := nextSeq u, core := actCore s.act0, block := c, arrival := al.addr, record := recd, done := 0, crc := 2 ^ 64 - 1, delivered := 0, uncounted := 0, failed := none, started := false, closing := false, took := none, raised := false }
        bumpSeq { u with dev := { v with engineUses := v.engineUses ++ match stampOfKey s.act0.key with
          | some x => [{ run := x.1, stamp := x.2, seq := nextSeq u, arrival := al.addr, size := 2 ^ c.esize, counted := 0, covered := 0, seen := [] }]
          | none => [] } })
    at_ (.cpy k a b) false none ∧ at_ (.cpysum k d a b) true (some rl.addr)

/-- R415-R417, R424: COLL. A block that cannot be read traps as a 64-byte load does. After the checks of its block, of the members, of
the arrival word and the record, of the sides and of the key, in this order, it raises SEQ by 1 and stands among the device's collectives with no peer, under its number among the
commands of its key since RESET, and its writes are not seen before a WAIT on its arrival word (R271); a speculative activation's is
held, and takes its SEQ when it is released. What lower phases may still change, the TARGET and whether the key is in flight, is judged
once the activation is non-speculative, and the bundle stalls until then.
(Log 44: a block behind a FENCE of its bundle. Log 48: a speculative COLL is held, and the key. Log 49: when TARGET is read, and as the
own stores on their way leave it. Log 58: MEMX of an arrival word. Log 71: when an engine's writes are seen.) -/
def Obligations.CollectiveCommand : Prop :=
  ∀ (s : State) (k : KSel) (d a b : SReg) (l al rl : Located) (bs : List Byte) (u : State) (c : CollBlock),
    let i := Instr.coll k d a b
    let w := (readS s.act0 b).toNat
    let ready := locate s s.act0 (readS s.act0 a).toNat 64 64 .load false 0 = .ok l ∧ badIn s.dev l.addr 64 = false ∧
      loadNow s l 64 = some (bs, u)
    let known := targetKnown s al.addr = true
    let group := s.dev.number ∈ members c.group ∧ ∀ m ∈ members c.group, m ∈ s.dev.domain
    let placed := enginePtr s w 16 = .ok (some al) ∧ (d ≠ 0 → enginePtr s (readS s.act0 d).toNat 32 = .ok (some rl))
    let target := targetOf (ownView (before s) s.act0) al.addr
    let words := placed ∧ known ∧ badIn s.dev al.addr 16 = false ∧ target ≠ 0
    let sides := copyTarget s s.act0 c.src false false = true ∧ copyTarget s s.act0 c.dst true false = true
    let stalls := ∀ t, Effective s i t → exec i s = .next (stall s)
    let recd := if d = 0 then none else some rl.addr
    (∀ e, locate s s.act0 (readS s.act0 a).toNat 64 64 .load false 0 = .error e → Traps s i e.code e.addr e.info) ∧
    (locate s s.act0 (readS s.act0 a).toNat 64 64 .load false 0 = .ok l → badIn s.dev l.addr 64 = true →
      Traps s i 0x19 (readS s.act0 a).toNat (memLevel l.addr)) ∧
    (locate s s.act0 (readS s.act0 a).toNat 64 64 .load false 0 = .ok l → badIn s.dev l.addr 64 = false →
      loadNow s l 64 = none → ∀ t, Effective s i t → exec i s = .next (stallLoad s l.mode)) ∧
    (ready → parseColl bs = none → Traps s i 0x16 0 6) ∧
    (ready → parseColl bs = some c → ¬ group → Traps s i 0x16 0 17) ∧
    (∀ e, ready → parseColl bs = some c → group → enginePtr s w 16 = .error e → Traps s i e.code e.addr e.info) ∧
    (∀ e o, ready → parseColl bs = some c → group → enginePtr s w 16 = .ok o → d ≠ 0 → enginePtr s (readS s.act0 d).toNat 32 = .error e →
      Traps s i e.code e.addr e.info) ∧
    (ready → parseColl bs = some c → group → enginePtr s w 16 = .ok none → d = 0 → Traps s i 0x16 0 7) ∧
    (∀ o, ready → parseColl bs = some c → group → enginePtr s w 16 = .ok none → d ≠ 0 → enginePtr s (readS s.act0 d).toNat 32 = .ok o →
      Traps s i 0x16 0 7) ∧
    (ready → parseColl bs = some c → group → enginePtr s w 16 = .ok (some al) → d ≠ 0 → enginePtr s (readS s.act0 d).toNat 32 = .ok none →
      Traps s i 0x16 0 7) ∧
    (ready → parseColl bs = some c → group → placed → ¬ known → stalls) ∧
    (ready → parseColl bs = some c → group → placed → known → badIn s.dev al.addr 16 = true → Traps s i 0x19 w (memLevel al.addr)) ∧
    (ready → parseColl bs = some c → group → placed → known → badIn s.dev al.addr 16 = false → target = 0 → Traps s i 0x16 0 7) ∧
    (ready → parseColl bs = some c → group → words → ¬ sides → Traps s i 0x16 0 8) ∧
    (ready → parseColl bs = some c → group → words → sides → keyTaken s.dev s.act0 c = true → holdsBack u u.act0 = true → stalls) ∧
    (ready → parseColl bs = some c → group → words → sides → keyTaken s.dev s.act0 c = true → holdsBack u u.act0 = false →
      Traps s i 0x16 0 18) ∧
    (ready → parseColl bs = some c → group → words → sides → keyTaken s.dev s.act0 c = false →
      (holdsBack u u.act0 = true → Completes s i fun _ =>
        pushHeld u u.act0.key { seq := nextSeq u, op := .coll c al.addr recd, core := actCore u.act0 }) ∧
      (holdsBack u u.act0 = false → 64 ≤ dieQueue s.dev (actDie s.act0) → stalls) ∧
      (holdsBack u u.act0 = false → dieQueue s.dev (actDie s.act0) < 64 → Completes s i fun _ =>
        let key := (c.group, c.tag)
        let n := match u.dev.collCounts.find? fun x => x.1 = key with | some x => x.2 | none => 0
        bumpSeq { u with dev := { u.dev with collCounts := (u.dev.collCounts.filter fun x => x.1 != key) ++ [(key, n + 1)], colls := u.dev.colls ++ [{ who := u.act0.key, stamp := u.act0.stamp, seq := nextSeq u, die := actDie u.act0, core := actCore u.act0, block := c, arrival := al.addr, record := recd, ordinal := n, peers := [], took := none }], engineUses := u.dev.engineUses ++ match stampOfKey u.act0.key with
            | some x => [{ run := x.1, stamp := x.2, seq := nextSeq u, arrival := al.addr, size := collSize c.type, counted := 0, covered := 0, seen := [] }]
            | none => [] } }))

/-! ## The matrix array (R338-R363) -/

/-- R320, R340, R345, R348-R350: MMA, MMAS, WLD and SCL. An issuer without the array is ACC cause 4, without the tile cause
1; then the feeds, then FMT: no format latched 2, sparsity that differs 4, formats of different classes 1, an invalid word 3;
then the operand, cause 3. Four waiting commands stall. Otherwise the command is enqueued: an MMA captures the latches,
makes its rows busy and gives the tile the slot's tag; a WLD latches its format word; SCL's eight bytes reach the latches
with latency 6. -/
def Obligations.ArrayCommands : Prop :=
  ∀ (s : State) (k : KSel) (d : AReg) (a : EReg) (b : SReg) (v : VReg) (f g : Feed) (w : Nat), s.dev = s.dev0 → s.act = s.act0 →
    let core := actCore s.act0
    let c := getCore s.dev core
    let x := (readS s.act0 b).toNat
    let acc := fun (i : Instr) (cause tile : Nat) => Traps s i 0x0E 0 (tile * 256 + cause)
    let fmt := fun (i : Instr) (cause wf af : Nat) => Traps s i 0x17 0 (cause + af * 2 ^ 12 + wf % 512 * 2 ^ 16)
    let owns := ownsArray s s.act0 = true ∧ d ∈ ownedTiles s s.act0
    let bound := feedOf s.act0 a = some f ∧ f.batten.out = false
    let bound2 := feedOf s.act0 (a + 1) = some g ∧ g.batten.out = false
    let mma := fun (i : Instr) (w1 sparse : Bool) =>
      let bk := bankOf c w1
      let feeds := bound ∧ (sparse = true → bound2)
      let formats := bk.fmt = some w ∧ wSparse w = sparse ∧ sameClass f.batten.fmt w = true ∧
        (sparse = true → g.batten.fmt = f.batten.fmt)
      (ownsArray s s.act0 = false → acc i 4 0) ∧ (ownsArray s s.act0 = true → d ∉ ownedTiles s s.act0 → acc i 1 d.val) ∧
      (owns → feedOf s.act0 a = none → Traps s i 0x0D 0 (a.val * 65536 + 2)) ∧
      (owns → feeds → bk.fmt = none → fmt i 2 0 (fmt4Code f.batten.fmt)) ∧
      (owns → feeds → bk.fmt = some w → wSparse w ≠ sparse → fmt i 4 w (fmt4Code f.batten.fmt)) ∧
      (owns → feeds → bk.fmt = some w → wSparse w = sparse → sameClass f.batten.fmt w = false →
        fmt i 1 w (fmt4Code f.batten.fmt)) ∧
      (owns → feeds → formats → x % 256 = 0 ∨ 64 < x % 256 + x / 256 % 256 ∨ 65536 ≤ x → acc i 3 d.val) ∧
      (owns → feeds → formats → 1 ≤ x % 256 → x % 256 + x / 256 ≤ 64 → 4 ≤ c.mulq.length →
        ∀ t, Effective s i t → exec i s = .next (stall s)) ∧
      (owns → feeds → formats → 1 ≤ x % 256 → x % 256 + x / 256 ≤ 64 → c.mulq.length < 4 → core < 32 → s.iss.freed = [] →
        ∀ t, Effective s i t → ∃ u, exec i s = .next u ∧ u.act = s.act ∧ u.dev.mem = s.dev.mem ∧
          let tile := (getCore u.dev core).tiles[d.val]
          (getCore u.dev core).mulq = c.mulq ++ [{ owner := s.act.key, serial := c.serial, tile := d, bank := w1, feed := a, afmt := f.batten.fmt, sparse := sparse, first := x / 256 % 256, n := x % 256, done := 0, latches := c.latches.toList.map (·.toInt), added := [], holds := [] }] ∧
          tile.tag = t ∧ tile.elems = c.tiles[d.val].elems ∧ tile.e = c.tiles[d.val].e ∧
          ∀ j, rowBusy tile j = (rowBusy c.tiles[d.val] j || (decide (x / 256 % 256 ≤ j) && decide (j < x / 256 % 256 + x % 256))))
    let wld := fun (i : Instr) (w1 : Bool) =>
      (ownsArray s s.act0 = false → acc i 4 0) ∧
      (ownsArray s s.act0 = true → feedOf s.act0 a = none → Traps s i 0x0D 0 (a.val * 65536 + 2)) ∧
      (ownsArray s s.act0 = true → bound → wordOk x = false → fmt i 3 x 0) ∧
      (ownsArray s s.act0 = true → bound → wordOk x = true → c.wq.length < 4 → core < 32 →
        ∀ t, Effective s i t → ∃ u, exec i s = .next u ∧ u.act = s.act ∧ (bankOf (getCore u.dev core) w1).fmt = some x ∧
          (bankOf (getCore u.dev core) w1).entries = (bankOf c w1).entries ∧
          (getCore u.dev core).wq = c.wq ++ [{ owner := s.act.key, serial := c.serial, bank := w1, feed := a, fmt := x, done := 0, was := none }])
    mma (.mmaW0 k d a b) false false ∧ mma (.mmaW1 k d a b) true false ∧ mma (.mmasW0 k d a b) false true ∧
    mma (.mmasW1 k d a b) true true ∧ wld (.wldW0 k a b) false ∧ wld (.wldW1 k a b) true ∧
    (ownsArray s s.act0 = false → acc (.scl k v) 4 0) ∧
    (ownsArray s s.act0 = true → Completes s (.scl k v) fun t =>
      pushResult s .latches (BitVec.ofNat 2048 ((readV s.act0 v).toNat % 2 ^ 64)) 6 t)

/-- R340, R352, R353, R356, R357, R359, R360: the writes of a tile and ASTAT. A tile of another is ACC cause 1, an operand out of
range cause 3, an E beyond 32,767 cause 2; a busy row stalls; a grid that differs is XEXP. AZERO clears a tile and sets E, AEXP sets
E alone, ANORM raises E by n and divides every V by 2^n, nearest even, ACOL replaces 64 column scales, AWRITE replaces sixteen raw
elements of a row and AWRITE.ADD adds them modulo 2^96, and a row that an MMA in progress has entered keeps the write without the
MMA too; the tile takes the slot's tag, and each row the instruction changes is held until four cycles later. ASTAT reads E, the
special bits and HEAD, the least count of bits below bit 95 that repeat it; its other bits are 0.
(Log 39: the cycles are the device's. Log 73: what an abandoned MMA leaves.) -/
def Obligations.TileWrites : Prop :=
  ∀ (s : State) (k : KSel) (d : AReg) (a b q : SReg) (v : VReg) (t : Tag), s.dev = s.dev0 → s.iss.freed = [] →
    let core := actCore s.act0
    let x := (getCore s.dev core).tiles[d.val]
    let n := (readS s.act0 a).toNat
    let y := (readS s.act0 b).toNat
    let acc := fun (i : Instr) (cause : Nat) => Traps s i 0x0E 0 (d.val * 256 + cause)
    let owned := d ∈ ownedTiles s s.act0
    let idle := ∀ j, j < 64 → rowBusy x j = false
    let gives := fun (i : Instr) (rows : List Nat) (p : Tile → Prop) => core < 32 → Effective s i t → ∃ u,
      exec i s = .next u ∧ u.act = s.act ∧ u.dev.mem = s.dev.mem ∧
        let z := (getCore u.dev core).tiles[d.val]
        z.tag = t ∧ p z ∧ z.busy = x.busy ++ rows.map fun j => (j, some (s.dev.cycle + 4))
    let all := List.range 64
    let row := y % 256
    let seg := y / 256 % 32
    let ok := row ≤ 63 ∧ seg ≤ 23 ∧ y / 2 ^ 13 % 2 ^ 19 = 0 ∧ y < 2 ^ 48
    let e := sextInt 16 (y / 2 ^ 32)
    let raw := fun (i : Nat) => elemOfRaw (lane 128 (readV s.act0 v) i)
    let writes := fun (i : Instr) (f : Elem → Elem → Elem) =>
      (¬ owned → acc i 1) ∧ (owned → ¬ ok → acc i 3) ∧
      (owned → ok → rowBusy x row = true → Effective s i t → exec i s = .next (stall s)) ∧
      (owned → ok → rowBusy x row = false → e ≠ x.e → Traps s i 0x18 0 (wrapNat 32 x.e + 2 ^ 32 * wrapNat 32 e)) ∧
      (owned → ok → rowBusy x row = false → e = x.e → gives i [row] fun z => z.e = x.e ∧ z.scales = x.scales ∧
        ∀ r c, c < 384 → getElem z r c = if r = row ∧ 16 * seg ≤ c ∧ c < 16 * seg + 16 then f (getElem x r c) (raw (c - 16 * seg))
          else getElem x r c) ∧
      (owned → ok → rowBusy x row = false → e = x.e → core < 32 → Effective s i t → ∃ u, exec i s = .next u ∧
        (getCore u.dev core).mulq = (getCore s.dev core).mulq.map fun m => if m.tile ≠ d then m else { m with
          added := m.added.map fun p => if row * 384 + 16 * seg ≤ p.1 ∧ p.1 < row * 384 + 16 * seg + 16 then
            (p.1, f p.2 (raw (p.1 - (row * 384 + 16 * seg)))) else p })
    let owner := fun (i : Instr) => (¬ owned → acc i 1) ∧ (owned → (∃ j, j < 64 ∧ rowBusy x j = true) → Effective s i t →
      exec i s = .next (stall s))
    owner (.azero k d a) ∧ (owned → idle → gives (.azero k d a) all fun z => z.e = sextInt 16 n ∧
      (∀ r c, getElem z r c = Elem.zero) ∧ ∀ c, getScale z c = 0x3F800000) ∧
    owner (.aexp k d a) ∧ (owned → idle → gives (.aexp k d a) all fun z => z.e = sextInt 16 n ∧ z.elems = x.elems ∧
      z.scales = x.scales) ∧
    (¬ owned → acc (.anorm k d a) 1) ∧ (owned → 96 < n → acc (.anorm k d a) 3) ∧
    (owned → n ≤ 96 → 32767 < x.e + n → acc (.anorm k d a) 2) ∧
    (owned → n ≤ 96 → x.e + n ≤ 32767 → idle → gives (.anorm k d a) all fun z => z.e = x.e + n ∧ z.scales = x.scales ∧
      ∀ r c, let o := getElem x r c; let w := getElem z r c
        w.nan = o.nan ∧ w.pinf = o.pinf ∧ w.ninf = o.ninf ∧ IntChosen .rne ((o.v.toInt : ℚ) / 2 ^ n) w.v.toInt) ∧
    (owned → n ≤ 96 → x.e + n ≤ 32767 → (∃ j, j < 64 ∧ rowBusy x j = true) → Effective s (.anorm k d a) t →
      exec (.anorm k d a) s = .next (stall s)) ∧
    (ownsArray s s.act0 = false → Traps s (.acol k d v b) 0x0E 0 4) ∧
    (ownsArray s s.act0 = true → ¬ owned → acc (.acol k d v b) 1) ∧
    (ownsArray s s.act0 = true → owned → 5 < y → acc (.acol k d v b) 3) ∧
    (ownsArray s s.act0 = true → owned → y ≤ 5 → (∃ j, j < 64 ∧ rowBusy x j = true) → Effective s (.acol k d v b) t →
      exec (.acol k d v b) s = .next (stall s)) ∧
    (ownsArray s s.act0 = true → owned → y ≤ 5 → idle → gives (.acol k d v b) all fun z => z.e = x.e ∧ z.elems = x.elems ∧
      ∀ c, c < 384 → getScale z c = if 64 * y ≤ c ∧ c < 64 * y + 64 then lane 32 (readV s.act0 v) (c - 64 * y) else getScale x c) ∧
    writes (.awrite k d v b) (fun _ y => y) ∧
    writes (.awriteAdd k d v b) (fun x y => { v := x.v + y.v, nan := x.nan || y.nan, pinf := x.pinf || y.pinf, ninf := x.ninf || y.ninf }) ∧
    (¬ owned → acc (.astat k q d) 1) ∧
    (owned → x.busy ≠ [] → Effective s (.astat k q d) t → exec (.astat k q d) s = .next (stall s)) ∧
    (owned → x.busy = [] → ∃ z : Word, ScalarResult s (.astat k q d) q z 1 ∧ (z.extractLsb' 0 16).toNat = wrapNat 16 x.e ∧
      z.getLsbD 16 = x.elems.any (·.2.nan) ∧ z.getLsbD 17 = x.elems.any (·.2.pinf) ∧ z.getLsbD 18 = x.elems.any (·.2.ninf) ∧
      z.extractLsb' 19 5 = 0 ∧ z.extractLsb' 31 33 = 0 ∧
      let head := (z.extractLsb' 24 7).toNat
      head ≤ 95 ∧ (∀ p ∈ x.elems, ∀ i, i < head → p.2.v.getLsbD (94 - i) = p.2.v.getLsbD 95) ∧
      (head = 95 ∨ ∃ p ∈ x.elems, p.2.v.getLsbD (94 - head) ≠ p.2.v.getLsbD 95))

/-- R340, R361, R362: AREAD. The operand is cause 3 where the row, the segment or a reserved bit is out of range; a busy row
stalls. The raw form gives sixteen elements of 128 bits; a rounded form gives one lane for each column of its segment, each
the one rounding of the element's value, or of its product with the column's scale, with the flags of R85. Latency 8. The
value is V * 2^E, a zero +0, or the infinity or the NaN of the special bits, as R93 reads an exact sum. -/
def Obligations.TileReads : Prop :=
  (
  ∀ (s : State) (k : KSel) (d : VReg) (a : AReg) (b : SReg) (dst : AreadDst), s.dev = s.dev0 →
    let x := (getCore s.dev (actCore s.act0)).tiles[a.val]
    let y := (readS s.act0 b).toNat
    let row := y % 256
    let seg := y / 256 % 32
    let i := Instr.aread k d a b dst
    let ok := fun (last : Nat) => row ≤ 63 ∧ seg ≤ last ∧ y / 2 ^ 13 % 8 = 0 ∧ y < 2 ^ 17
    let acc := fun (cause : Nat) => Traps s i 0x0E 0 (a.val * 256 + cause)
    let owned := a ∈ ownedTiles s s.act0
    (¬ owned → acc 1) ∧
    (dst = .raw → owned → ¬ (ok 23 ∧ y < 2 ^ 16) → acc 3) ∧
    (dst = .raw → owned → ok 23 → y < 2 ^ 16 → rowBusy x row = true → ∀ t, Effective s i t → exec i s = .next (stall s)) ∧
    (dst = .raw → owned → ok 23 → y < 2 ^ 16 → rowBusy x row = false →
      VectorResult s i d (ofLanes 128 fun l => rawOfElem (getElem x row (16 * seg + l))) 8) ∧
    let rounds := fun (f : FFmt) (w : Nat) (r : Rnd) (last : Nat) =>
      let n := min (2048 / w) (384 - 2048 / w * seg)
      let v := fun (j : Nat) => readoutLane f (fpMode s r) x.e
        (if y.testBit 16 then some (getScale x (2048 / w * seg + j)) else none) (getElem x row (2048 / w * seg + j))
      let quiet := fun (j : Nat) => trapsOn (enables s.act0) (v j).2 = false
      (owned → ¬ ok last → acc 3) ∧
      (owned → ok last → rowBusy x row = true → ∀ t, Effective s i t → exec i s = .next (stall s)) ∧
      (owned → ok last → rowBusy x row = false → (∀ j, j < n → quiet j) →
        Completes s i fun t => resultV (addFlags s (allFlags ((List.range n).map v))) d
          (ofLaneList w ((List.range n).map fun j => (v j).1)) 8 t) ∧
      (owned → ok last → rowBusy x row = false → ∀ j, j < n → ¬ quiet j → (∀ j', j' < j → quiet j') →
        Traps s i 0x12 0 (flagsNat (allFlags ((List.range n).map v)) + 256 * j))
    ∀ r, (dst = .f32 r → rounds fmtF32 32 r 5) ∧ (dst = .bf16 r → rounds fmtBF16 16 r 2) ∧
      (dst = .f16 r → rounds fmtF16 16 r 2) ∧ (dst = .e4m3 r → rounds fmtE4M3 8 r 1) ∧ (dst = .e5m2 r → rounds fmtE5M2 8 r 1)) ∧
  (
    ∀ (f : FFmt) (mode : Mode) (e : Int) (x : Elem) (c : Nat), f ∈ floatFormats →
      let v : ℚ := x.v.toInt * (2 : ℚ) ^ e
      let special := x.nan || x.pinf || x.ninf
      let y := decodeF fmtF32 c
      let z := readoutLane f mode e (some c) x
      ReadsOut f mode { nan := x.nan, pinf := x.pinf, ninf := x.ninf } v (readoutLane f mode e none x) ∧
      (x.nan = true ∨ (x.pinf = true ∧ x.ninf = true) → z = (canonNaN f, flagNV true)) ∧
      (special = false → (∃ g m k, y = .fin g m k) →
        (v * fval y ≠ 0 → Rounded f mode (v * fval y) z) ∧
        (v * fval y = 0 → z = (withSign f (decide (v < 0) != signOf y) 0, noFlags))) ∧
      (x.nan = false → x.pinf = !x.ninf → fval y = 0 → (∃ g m k, y = .fin g m k) → z = (canonNaN f, flagNV true)) ∧
      (x.nan = false → x.pinf = !x.ninf → fval y ≠ 0 → z = readoutLane f mode e none { x with
        pinf := x.ninf == signOf y, ninf := x.ninf != signOf y }) ∧
      (∀ g, special = false → y = .inf g → (v = 0 → z = (canonNaN f, flagNV true)) ∧ (v ≠ 0 → z = readoutLane f mode e none { x with
        pinf := decide (v < 0) == g, ninf := decide (v < 0) != g })))

/-! ## The SYS group (R394-R405) -/

/-- R377, R383, R395, R396: RFT and KILL. A handle that names no activation the issuer may act on, or for RFT none that is frozen,
is ENG cause 13, an invalid mode cause 15. RFT makes the activation ready with the record in its trap CSRs, at its own bundle or, in
mode 1, at the one after it one advance cycle on, its snapshot entries at their distances from there; KILL mode 0 ends a frozen,
parked or saved activation once its commands and its outbound entries are over, and stalls until then, a handler being gone once
nothing of it is on its way; mode 1 tears its run down. An activation whose context is saved resumes in its context, as its image stands; a handler activation keeps the record that was
delivered to it.
(Log 16: the pass after a skipped bundle. Log 19: RFT on a saved activation acts on its image as it stands in memory. Log 22: the
order of the checks, and the wait of KILL mode 0. Log 25: a handler that KILL ends is gone only once nothing of it is on its way. Log
57: the traps that KILL finds pending are raised as those of an END are.) -/
def Obligations.ReturnAndKill : Prop :=
  ∀ (s : State) (k : KSel) (a b : SReg) (x : Act) (f : Frozen), let mode := (readS s.act0 b).toNat
    let named := frozenTarget s (readS s.act0 a) = some x ∧ (fromImage s x).frozen = some f ∧ findAct s x.key = some x
    let killed := sysTarget s (readS s.act0 a) = some x
    let busy := endBusy s.dev x = true ∨ drained x = false ∨ arrayBusy s.dev x = true
    let rft := Instr.rft k a b
    let kill := Instr.kill k a b
    let eng := fun (i : Instr) (c : Nat) => Traps s i 0x16 0 c
    let code := codeOf s x
    let resumed := fun (y : Act) => y.frozen = none ∧ y.trap = (if isHandler x then x.trap else f.record) ∧ y.handle = 0 ∧
      y.snapshot = [] ∧
      y.s = x.s ∧ y.v = x.v ∧ y.seq = x.seq ∧ y.status = (if x.place.isSome then .ready else .pending) ∧
      y.inflight = x.inflight ++ x.snapshot.map fun g => { g with due := x.adv + g.due }
    let illb1 := recCode f.record = 1 ∧ f.record.info.toNat / 2 ^ 32 % 8 = 1
    (frozenTarget s (readS s.act0 a) = none → eng rft 13) ∧ (sysTarget s (readS s.act0 a) = none → eng kill 13) ∧
    (named → 2 ≤ mode → eng rft 15) ∧ (killed → 2 ≤ mode → eng kill 15) ∧ (named → mode = 1 → illb1 → eng rft 15) ∧
    (named → x.saved = none → mode = 0 → ∀ t, Effective s rft t → ∃ u y, exec rft s = .next u ∧ findAct u x.key = some y ∧
      resumed y ∧ y.pc = x.pc ∧ y.adv = x.adv ∧ u.dev.mem = s.dev.mem) ∧
    (named → x.saved = none → mode = 1 → ¬ illb1 → ∀ t, Effective s rft t → ∃ u y, exec rft s = .next u ∧
      findAct u x.key = some y ∧ resumed y ∧ y.pc = x.pc + 4 * bundleSlots code x.pc ∧ y.adv = x.adv + 1 ∧ y.boundary = false ∧
      u.dev.mem = s.dev.mem) ∧
    (named → x.saved ≠ none → mode = 0 → ∀ t, Effective s rft t → let z := fromImage s x
      ∃ u y, exec rft s = .next u ∧ findAct u x.key = some y ∧ y.frozen = none ∧
        y.trap = (if isHandler x then z.trap else f.record) ∧ y.handle = 0 ∧ y.saved.isSome = true ∧ y.pc = z.pc ∧ y.s = z.s ∧
        y.v = z.v ∧ y.seq = z.seq ∧ y.snapshot = z.snapshot) ∧
    (killed → mode = 0 → ¬ busy → isHandler x = false → Completes s kill fun _ => endNow s (fromImage s x)) ∧
    (killed → mode = 0 → ¬ busy → isHandler x = true → Completes s kill fun _ => dropEndedHandler (endNow s (fromImage s x)) x.key) ∧
    (killed → mode = 0 → busy → ∀ t, Effective s kill t → exec kill s = .next (stall s)) ∧
    (∀ n, killed → mode = 1 → runOfKey x.key = some n → runOfKey s.act0.key ≠ some n → Completes s kill fun _ => tearDown s n) ∧
    (∀ n, killed → mode = 1 → runOfKey x.key = some n → runOfKey s.act0.key = some n → ∀ t, Effective s kill t → ∃ u,
      exec kill s = .next u ∧ u.dev = (tearDown s n).dev ∧ u.act = (tearDown s n).act ∧ u.iss.status = .trapped)

/-- R384, R397: SNAPR and SNAPW by class on an activation in a slot, or in the context it is saved in, as its image stands. SNAPR
gives a scalar register, 64 bits of a vector register, a tag, a CSR, a clock's byte or a scratch doubleword, interlocked; SNAPW
writes registers, tags 0-13, 30 and 31, FPC, VPART and scratch, and a value written to a register or to scratch has no uncorrectable
error left in that word. An item with an uncorrectable error never comes, in a register, in scratch or in the bytes of the image that hold it: sD stays
under interlock and MEMX is pending. A selector outside the rules is ENG cause 14, an invalid handle cause 13.
(Log 19: a saved activation's image. Log 21: interlocked. Logs 31 and 58: an item with an uncorrectable error, and SNAPW.) -/
def Obligations.SnapshotAccess : Prop :=
  ∀ (s : State) (k : KSel) (d a b : SReg) (x : Act) (n : Nat) (r : Fin 32), let sel := (readS s.act0 b).toNat
    let y := readS s.act0 d
    let named := sysTarget s (readS s.act0 a) = some x ∧ x.saved = none ∧ findAct s x.key = some x
    let rd := Instr.snapr k d a b
    let wr := Instr.snapw k d a b
    let gives := fun (v : Nat) => Completes s rd fun t => awaitResult s (.s d) (BitVec.ofNat 2048 v) t .ready
    let bad := fun (addr info : Nat) =>
      Completes s rd fun t => awaitFailed s (.s d) 0 t (deferredRec 0x19 addr info s.act0.stamp (nextSeq s))
    let puts := fun (z : Act) => Completes s wr fun _ => putAct s z
    let eng := fun (i : Instr) (c : Nat) => Traps s i 0x16 0 c
    let is_ := fun (c n : Nat) => sel = c * 2 ^ 56 + n ∧ n < 2 ^ 20
    (sysTarget s (readS s.act0 a) = none → eng rd 13 ∧ eng wr 13) ∧
    (named → (6 ≤ sel / 2 ^ 56 ∨ sel / 2 ^ 20 % 2 ^ 36 ≠ 0) → eng rd 14 ∧ eng wr 14) ∧
    (named → is_ 0 r.val → (r = 0 ∨ (.s r, 0) ∉ x.badRegs → gives (readS x r).toNat) ∧
      (r ≠ 0 → (.s r, 0) ∈ x.badRegs → bad 0 5) ∧ (r = 0 → Completes s wr fun _ => s) ∧
      (r ≠ 0 → puts { x with s := x.s.set r.val y, badRegs := x.badRegs.filter (· != (.s r, 0)) })) ∧
    (named → is_ 0 n → 32 ≤ n → eng rd 14 ∧ eng wr 14) ∧
    (named → is_ 1 (32 * r.val + n) → n < 32 → ((.v r, n) ∉ x.badRegs → gives (lane 64 (readV x r) n)) ∧
      ((.v r, n) ∈ x.badRegs → bad 0 5) ∧
      puts { x with v := x.v.set r.val (ofLanes 64 fun i => if i = n then y.toNat else lane 64 (readV x r) i)
                    badRegs := x.badRegs.filter (· != (.v r, n)) }) ∧
    (named → is_ 2 r.val → gives (tagS x r).toNat ∧
      (y.toNat < 14 ∨ y.toNat = 30 ∨ y.toNat = 31 → r ≠ 0 → puts { x with sTag := x.sTag.set r.val (BitVec.ofNat 5 y.toNat) }) ∧
      (¬ (y.toNat < 14 ∨ y.toNat = 30 ∨ y.toNat = 31) → eng wr 14)) ∧
    (named → is_ 2 (32 + r.val) → gives (tagV x r).toNat ∧
      (y.toNat < 14 ∨ y.toNat = 30 ∨ y.toNat = 31 → puts { x with vTag := x.vTag.set r.val (BitVec.ofNat 5 y.toNat) })) ∧
    (named → is_ 3 0 → gives x.fpc.toNat ∧ puts { x with
      fpc := (y &&& 0x1FF8) ||| ((if y.toNat % 8 = 0 ∨ y.toNat % 8 = 7 then x.fpc else y) &&& 7) }) ∧
    (named → is_ 3 2 → gives x.vpart.toNat ∧ puts { x with vpart := y &&& 7 }) ∧
    (named → is_ 3 0x040 → gives x.trap.cause.toNat ∧ eng wr 14) ∧
    (named → is_ 4 n → n < 14 → (∃ c : Clock, x.clocks[n]? = some c ∧ gives ((if c.defd then 128 else 0) + 8 * c.parent.val + 2 * c.role.val +
      (if c.pres then 1 else 0))) ∧ eng wr 14) ∧
    (named → is_ 5 n → 8 * n < scratchExtent s x →
      (badIn s.dev (scratchAddr x (8 * n)) 8 = false → gives (memReadNat s.dev.mem (scratchAddr x (8 * n)) 8)) ∧
      (badIn s.dev (scratchAddr x (8 * n)) 8 = true → bad (8 * n) (memLevel (scratchAddr x (8 * n)))) ∧
      ∀ t, Effective s wr t → ∃ u, exec wr s = .next u ∧
        u.dev.mem = memWriteBytes s.dev.mem (scratchAddr x (8 * n)) (bytesOfNat 8 y.toNat) ∧ u.act = s.act ∧
        ∀ b, b ∈ u.dev.bad ↔ b ∈ s.dev.bad ∧ b / 8 ≠ scratchAddr x (8 * n) / 8) ∧
    (named → is_ 5 n → scratchExtent s x ≤ 8 * n → eng rd 14 ∧ eng wr 14) ∧
    (sysTarget s (readS s.act0 a) = some x → x.saved.isSome = true → findAct s x.key = some x → let z := fromImage s x
      let keeps := fun (z' : Act) => Completes s wr fun _ => toImage (putAct s z') z'
      let gives := fun (v : Nat) => itemError s z sel = none → gives v
      (∀ w p, z.saved = some w → w.image = some p → (s.dev.bad = [] → itemError s z sel = none) ∧
        (is_ 0 r.val → badIn s.dev (p + 256 + 8 * r.val) 8 = true → bad 0 (memLevel (p + 256 + 8 * r.val))) ∧
        (is_ 1 (32 * r.val + n) → n < 32 → badIn s.dev (p + 512 + 256 * r.val + 8 * n) 8 = true →
          bad 0 (memLevel (p + 512 + 256 * r.val + 8 * n)))) ∧
      (is_ 0 r.val → gives (readS z r).toNat ∧
        (r ≠ 0 → keeps { z with s := z.s.set r.val y, badRegs := z.badRegs.filter (· != (.s r, 0)) })) ∧
      (is_ 1 (32 * r.val + n) → n < 32 → gives (lane 64 (readV z r) n) ∧
        keeps { z with v := z.v.set r.val (ofLanes 64 fun i => if i = n then y.toNat else lane 64 (readV z r) i)
                       badRegs := z.badRegs.filter (· != (.v r, n)) }) ∧
      (is_ 2 r.val → gives (tagS z r).toNat) ∧ (is_ 3 0x040 → gives z.trap.cause.toNat) ∧
      (∀ w, z.saved = some w → is_ 5 n → 8 * n < scratchExtent s z → gives (memReadNat w.scratch (8 * n) 8) ∧
        keeps { z with saved := some { w with
          bad := w.bad.filter fun x => x / 8 != n, scratch := memWriteBytes w.scratch (8 * n) (bytesOfNat 8 y.toNat) } }))

/-- R391, R398-R400, R404, R405: CTXSV writes the image of a parked or frozen activation, frees its slot and gives SIZE, and
stalls until the waits of R387 are over; a handle of any other is ENG cause 13, and a register or a kept scratch byte with an
uncorrectable error MEMX. CTXLD places the saved activation of the image
at sA on core sB and gives its slot; a wrong MAGIC or SIZE or a core that cannot take it is cause 16, an uncorrectable error in
the header MEMX (R384); one that runs beside another of its stamp, and a handler, waits until no live store is read by some parties
only. TTINV makes later accesses use the entries as they stand. A write of PREEMPT while REQ reads 1 is ignored; otherwise it sets CORE,
SLOT and REQ, and the request goes out when the bundle commits.
(Logs 19, 20 and 21: parts of the image, the owner of an image, interlocked results. Log 43: the wait of CTXLD. Log 58: MEMX of the
header and of a context. Log 75: CSRS and CSRC of PREEMPT.) -/
def Obligations.ContextsAndRequests : Prop :=
  ∀ (s : State) (k : KSel) (d a b : SReg) (x : Act) (v : Saved) (l l' : Located) (r : Run) (slot : Nat),
    let p := (readS s.act0 b).toNat
    let q := (readS s.act0 a).toNat
    let sv := Instr.ctxsv k d a b
    let ld := Instr.ctxld k d a b
    let tt := Instr.ttinv k a b
    let eng := fun (i : Instr) (c : Nat) => Traps s i 0x16 0 c
    let named := sysTarget s (readS s.act0 a) = some x
    let stands := x.place.isSome = true ∧ (x.status = .parked ∨ x.status = .frozen)
    let image := imageBytes s (savedAct s x) (savedOf s x)
    let header := memReadBytes s.dev0.mem l.addr 256
    let whole := named ∧ stands ∧ locate s s.act0 p (max 22784 image.length) 256 .store true 0 = .ok l
    let readable := locate s s.act0 q 256 256 .load false 0 = .ok l
    let owner := readable ∧ badIn s.dev l.addr 256 = false ∧ imageOwner s l.addr header = some x ∧ x.saved = some v
    let size := (imageBytes s x v).length
    let right := natAt header 0 4 = 0x31585443 ∧ natAt header 4 4 = size
    let y := fromImage s { x with
      saved := some { v with image := some l.addr }, deferred := if v.image.isSome then x.deferred else [] }
    let joins := (∀ z ∈ s.dev.liveq, z.reach = 0) ∨ (isHandler x = false ∧
      ∀ z ∈ acts s, z.key ≠ x.key → kin z.key x.key = true → z.status = .ended ∨ z.status = .retired)
    let spoilt := fun (o : Nat) => ∃ z ∈ savedBuffers s x, ∃ j < z.size, o = z.bank * 131072 + z.offset + j ∧ scratchAddr x o ∈ s.dev.bad
    let csr := fun (y : Nat) => BitVec.ofNat 64 (y / 256 % 256 * 256 + y % 8 + if y / 65536 % 2 = 1 then 65536 else 0)
    let fields := fun (y : Word) => { s with act := { s.act with preemptCsr := csr y.toNat } }
    (named → ¬ stands → locate s s.act0 p 22784 256 .store true 0 = .ok l → eng sv 13) ∧
    (whole → settled s x = false → ∀ t, Effective s sv t → exec sv s = .next (stall s)) ∧
    (whole → settled s x = true → x.badRegs ≠ [] → Traps s sv 0x19 0 5) ∧
    (whole → settled s x = true → x.badRegs = [] → (∃ o, spoilt o) → ∀ t, Effective s sv t → ∃ o, spoilt o ∧
      exec sv s = .next (slotTrap s 0x19 o 1)) ∧
    (whole → settled s x = true → x.badRegs = [] → (∀ o, ¬ spoilt o) → Completes s sv fun t =>
      let b := savedAct s x
      let w := { savedOf s x with image := some l.addr }
      let u := { s with dev := { s.dev with mem := memWriteBytes s.dev.mem l.addr image } }
      awaitResult (leaveSlot u (besideImage b w)) (.s d) (BitVec.ofNat 2048 image.length) t .ready) ∧
    (readable → badIn s.dev l.addr 256 = true → Traps s ld 0x19 (wrapNat 64 q) (memLevel l.addr)) ∧
    (owner → ¬ right ∨ 32 ≤ p → eng ld 16) ∧
    (owner → right → p < 32 → locate s s.act0 q size 256 .load false 0 = .ok l' → badIn s.dev l'.addr size = false →
      lowestSlot s p = some slot →
      (¬ joins → ∀ t, Effective s ld t → exec ld s = .next (stall s)) ∧
      (joins → startable s x = false ∨ fits s x p = false → eng ld 16) ∧
      (startable s x = true → fits s x p = true → Completes s ld fun t =>
        awaitResult (placeOn (putAct s y) y p) (.s d) (BitVec.ofNat 2048 slot) t .ready)) ∧
    (1024 ≤ q ∨ 8192 ≤ p → eng tt 14) ∧ (q < 1024 → p < 8192 → findRun s.dev q = none → Completes s tt fun _ => s) ∧
    (q < 1024 → p < 8192 → findRun s.dev q = some r → r.num = q → ∀ t, Effective s tt t → ∃ u r', exec tt s = .next u ∧
      findRun u.dev q = some r' ∧ r'.tables.map (·.entries) = r.tables.map (·.entries) ∧
      r'.tables.map (·.view) = r.tables.map fun t =>
        if 4096 ≤ p ∨ t.handle = p % 4096 then t.entries else t.view) ∧
    (s.act.preemptCsr.toNat / 65536 % 2 = 1 → ∀ i ∈ [Instr.csrw k a 0x101, .csrs k a 0x101, .csrc k a 0x101], Completes s i fun _ => s) ∧
    (s.act.preemptCsr.toNat / 65536 % 2 = 0 → let y := readS s.act0 a; let old := s.act0.preemptCsr
      Completes s (.csrw k a 0x101) (fun _ => fields y) ∧ Completes s (.csrs k a 0x101) (fun _ => fields (old ||| y)) ∧
      Completes s (.csrc k a 0x101) fun _ => fields (old &&& ~~~y))


/-! ## What a slot does between its bundles -/

/-- R19, R24-R26, R238, R286, R349, R384: results landing. The fixed-latency result that lands first is the one of least due
cycle, the earliest issued of equals; it writes its register and its tag, the tag 31 where its clock has gone, or its core's
latches, and nothing else; a register that awaits an interlocked result keeps that result's tag. A timed load lands so once its
data have come; data with an uncorrectable error leave the register under interlock. An interlocked result also discards what
was issued earlier to its register. Data that reach a frozen or parked slot enter its snapshot buffer.
(Log 42: stale marks.) -/
def Obligations.ResultsLand : Prop :=
  ∀ (s : State) (who : ActKey) (a : Act) (f : InFlight) (p : Pend) (n : Nat) (r : Fin 32) (q : Place) (x : TrapRec)
    (l1 l2 : List InFlight), findAct s who = some a →
    let gone := { a with inflight := a.inflight.erase f }
    let waited := ∃ y ∈ a.pend, y.dest = f.dest
    let lands := fun (i : Instr) (timed : Bool) => landsNow a = true → landable a = some f → f.timed = timed →
      let tag := fun (old : Tag) (t : Tag) => (waited → t = old) ∧ (¬ waited → t = if f.stale then 31 else f.tag)
      (f.memx = none → f.dest = .s r → ∃ t, tag (tagS a r) t ∧ Does s i (putAct s (writeS gone r (wordOfVec f.val) t))) ∧
      (f.memx = none → f.dest = .v r → ∃ t, tag (tagV a r) t ∧ Does s i (putAct s (writeV gone r f.val t))) ∧
      (f.memx = none → f.dest = .latches → a.place = some q → Does s i (putAct { s with
        dev := putCore s.dev q.core { getCore s.dev q.core with latches := latchesOfVec f.val } } gone)) ∧
      (f.memx = some x → a.deferred.length < 8 → Does s i (putAct s { gone with
        pend := a.pend ++ [{ dest := f.dest, val := 0, tag := f.tag, stale := f.stale, wait := .never x }]
        deferred := a.deferred ++ [x] }))
    let i := Instr.interlockedResultLands who n
    let t := if p.stale then 31 else p.tag
    let kept := { a with pend := a.pend.erase p, inflight := a.inflight.filter (·.dest ≠ p.dest), snapshot := a.snapshot.filter (·.dest ≠ p.dest) }
    let comes := p.wait = .ready ∨ (∃ c, p.wait = .after c ∧ c ≤ s.dev.cycle) ∨ ∃ y z ys b, p.wait = .live y z ys b false
    let first := a.inflight = l1 ++ f :: l2 ∧ (∀ g ∈ l1, g.arrived = true) ∧ f.arrived = false
    lands (.fixedLatencyResultLands who) false ∧ lands (.timedLoadLands who) true ∧
    (landable a = some f → ∃ b c, a.inflight.filter (fun g => decide (g.due ≤ a.adv)) = b ++ f :: c ∧ f.arrived = true ∧
      (∀ g ∈ b, f.due < g.due ∨ (f.due = g.due ∧ f.issued < g.issued)) ∧
      ∀ g ∈ c, f.due < g.due ∨ (f.due = g.due ∧ f.issued ≤ g.issued)) ∧
    (landsNow a = false → Does s (.fixedLatencyResultLands who) s ∧ Does s (.timedLoadLands who) s) ∧
    (a.pend[n]? = some p → a.place.isSome = true → comes →
      (p.dest = .s r → Does s i (putAct s (writeS kept r (wordOfVec p.val) t))) ∧
      (p.dest = .v r → Does s i (putAct s (writeV kept r p.val t)))) ∧
    (a.place = none → Does s i s) ∧
    (first → a.status ≠ .frozen → a.status ≠ .parked → Does s (.timedLoadDataArrival who)
      (putAct s { a with inflight := l1 ++ { f with arrived := true } :: l2 })) ∧
    (first → l1 = [] → (∀ g ∈ l2, g.arrived = false) → a.status = .frozen ∨ a.status = .parked →
      Does s (.timedLoadDataArrival who) (putAct s { a with
        inflight := l2, snapshot := a.snapshot ++ [{ f with arrived := true, due := f.due - a.adv }] }))

/-- R376, R379-R387, R405: a request marks the activation in its slot, once, and is dropped at an empty one; at a boundary, or
at the forced point after 16,384 bundles, what is due lands and the slot parks under a handle with its other results in the
snapshot buffer, unless a timed load holds the pipeline; a parked slot, or a frozen one with a request, that has settled is
saved and its slot freed. A delivered trap starts a handler: the stamp, the SEQ and the record of the trapped activation, the
handle in s1 with tag 0, no weight; without a handler task, or where a handler met the trap, the run is torn down and the
records are kept. When no frozen activation can have its handler, a trap without one has its own, with 0 in s1, or, where an ended
handler left it, the tear-down that keeps both records. No handler starts while a live store is read by some parties only.
(Log 17: when a handle is taken. Log 43: what a handler's start waits for. Log 18: a saved frozen activation stays frozen. Log 34: the service saves within the event.
Log 57: when the tear-down comes.) -/
def Obligations.PreemptionAndHandlers : Prop :=
  ∀ (s : State) (core : Fin 32) (slot : Fin 8) (a x : Act) (r : Run) (t : Task) (f : Frozen) (n : Nat) (o : OrphanTrap)
    (l : List OrphanTrap), findAct s a.key = some a →
    let here := slotAct s core.val slot.val = some a
    let w := landDue a.inflight.length a.key s
    let parks := fun (i : Instr) => ∃ u b, exec i s = .next u ∧ findAct u a.key = some b ∧ b.status = .parked ∧
      b.preempt = false ∧ b.inflight = x.inflight.filter (fun g => !g.arrived) ∧ b.handle ≠ 0 ∧ b.pc = x.pc ∧ b.s = x.s ∧
      b.snapshot = x.snapshot ++ (x.inflight.filter (·.arrived)).map fun g => { g with due := g.due - x.adv }
    let asks := here ∧ a.status = .ready ∧ a.preempt = true ∧ a.passEnd = false ∧ findAct w a.key = some x
    let wait := (acts s).filter fun y => awaitsHandler y && (endsRun s y || canHandle s y)
    let home := ∀ q ∈ s.dev.liveq, q.reach = 0
    let longest := home ∧ oldest wait = some a
    let orphan := home ∧ wait = [] ∧ s.dev.orphanTraps = o :: l ∧ findRun s.dev o.run = some r
    let left := { s with dev := { s.dev with orphanTraps := l } }
    (s.dev.boot = .running → slotAct s core.val slot.val = none → Does s (.preempt core slot) s) ∧
    (s.dev.boot = .running → here → runOfKey a.key ≠ none → a.status ≠ .ended → a.status ≠ .retired →
      Does s (.preempt core slot) (putAct s { a with preempt := true, sinceRequest := if a.preempt then a.sinceRequest else 0 })) ∧
    (findAct w a.key = some x → landable x = none) ∧
    (asks → frozenByTimedLoad x = false → canHandle w x = true →
      (a.boundary = true → parks (.preemptionLands core slot)) ∧
      (16384 < a.sinceRequest → parks (.forcedPreemptionPoint core slot))) ∧
    (asks → frozenByTimedLoad x = true → Does s (.preemptionLands core slot) s ∧ Does s (.forcedPreemptionPoint core slot) s) ∧
    (here → a.status = .parked ∨ (a.status = .frozen ∧ a.preempt = true) → a.handle ≠ 0 → settled s a = true →
      ∃ u b, exec (.preemptionLands core slot) s = .next u ∧ findAct u a.key = some b ∧ b.place = none ∧ b.saved.isSome = true ∧
        b.pc = a.pc ∧ b.s = a.s ∧ b.v = a.v ∧ b.status = if a.frozen.isSome then .frozen else .pending) ∧
    (¬ home → Does s .handlerActivationStart s) ∧
    (longest → a.frozen = some f → actRun s a = some r → isHandler a = false → imgHandler r.image = some t →
      ∃ u h b, exec .handlerActivationStart s = .next u ∧ h ∈ acts u ∧ findAct u a.key = some b ∧
        b.frozen = some { f with stage := .served } ∧ h.key = .handler r.num a.stamp r.handlerSerial ∧ h.stamp = a.stamp ∧
        h.task = t.num ∧ h.status = .pending ∧ h.trap = f.record ∧ h.seq = a.seq ∧ h.weight = 0 ∧ h.serves = b.handle ∧
        readS h 1 = b.handle ∧ b.handle ≠ 0 ∧ tagS h 1 = 0) ∧
    (longest → a.frozen = some f → runOfKey a.key = some n → findRun s.dev n = some r →
      (isHandler a = true → Does s .handlerActivationStart (tearDownKeeping s n [a.trap, f.record])) ∧
      (isHandler a = false → imgHandler r.image = none → Does s .handlerActivationStart (tearDownKeeping s n [f.record]))) ∧
    (orphan → o.met = none → imgHandler r.image = some t → ∃ u h, exec .handlerActivationStart s = .next u ∧ h ∈ acts u ∧
      u.dev.orphanTraps = l ∧ h.key = .handler r.num o.stamp r.handlerSerial ∧ h.stamp = o.stamp ∧ h.task = t.num ∧
      h.status = .pending ∧ h.trap = o.record ∧ h.seq = o.seq ∧ h.weight = 0 ∧ h.serves = 0 ∧ readS h 1 = 0 ∧ tagS h 1 = 0) ∧
    (orphan → o.met = none → imgHandler r.image = none → Does s .handlerActivationStart (tearDownKeeping left o.run [o.record])) ∧
    (orphan → ∀ m, o.met = some m → Does s .handlerActivationStart (tearDownKeeping left o.run [m, o.record]))

/-- R177, R181, R189, R190, R197-R200, R243, R258, R372: an ended activation that is not speculative, holds nothing back, no pending
trap among it, and has nothing on its way, no trap of it awaiting a handler, in a run no repair notice of which is on its way, retires: its weight returns, and the lines of the tensors
it wrote leave the caches. Held effects go out in SEQ order once it is not speculative, then its held trap with TCAUSE.HELD, or
the trap it met while effects were still held, behind what its commands that failed meanwhile still write; one that has ended then
raises the traps its END found pending; the image of an activation that CTXSV saved follows the delivery. A held live
access is that of the core it was issued on. An instant within the reach and the allowance is admitted: its activations appear, each with floor(2^63 / W), the remainder
counted as returned; when 2^63 has returned it completes.
(Log 25: what must be over before a retirement. Log 26: absent tasks count in W. Log 43: a held live access is that of the core it was
issued on. Log 48: a trap behind effects still held. Log 49: a trap behind what a failed command still writes. Log 57: no retirement
comes while a trap of the activation awaits a handler, and when the traps of an END are raised. Log 19: the image of a saved
activation.) -/
def Obligations.RetirementAndInstants : Prop :=
  ∀ (s : State) (run inst : Nat) (who : Stamp) (a : Act) (r : Run) (i : Instant) (h : Held) (addr : Nat) (op : LiveOp)
    (f : Frozen) (b : Act),
    let left := ∃ c ∈ s.dev.copies.toList.flatten, c.who = .ordinary run who ∧ c.raised = true
    let raises := { s with dev := { s.dev with orphanTraps := s.dev.orphanTraps ++ a.deferred.map fun x =>
      { run := run, stamp := a.stamp, record := x, seq := a.seq, met := none } } }
    let retires := a.status = .ended ∧ speculative s a = false ∧ a.held = [] ∧ a.deferred = [] ∧ quiet s.dev run who (.ordinary run who) = true
    let gone := forgetUses (putAct s { a with status := .retired }) run who
    let m := r.nextInstant
    let w := initialCount r
    let share := if w = 0 then 0 else 2 ^ 63 / w
    let rest := if w = 0 then 2 ^ 63 else 2 ^ 63 % w
    let mayAdmit := s.dev.boot = .running ∧ m ≤ ridgeInstant s r + r.reach ∧ m < r.allowance ∧ m ≤ 2 ^ 48 - 1
    (findAct s (.ordinary run who) = some a → (retires → Does s (.activationRetire run who)
        (afterChange { gone with dev := returnWeight (retireLines gone.dev run who) run who.inst a.weight.toNat } run)) ∧
      (¬ retires → Does s (.activationRetire run who) s)) ∧
    (findAct s (.ordinary run who) = some a → speculative s a = true → Does s (.heldEffectRelease run who) s) ∧
    (findAct s (.ordinary run who) = some a → speculative s a = false → a.held = [h] → h.op = .live addr op → (fromImage s a).frozen = none →
      (a.status = .ended → a.deferred = []) →
      let u := putAct s { a with held := [] }
      Does s (.heldEffectRelease run who)
        { u with dev := { u.dev with liveq := s.dev.liveq ++ [{
          who := a.key, seq := h.seq, addr := addr, op := op, core := h.core, reach := 0, released := true, unit := .slot
          counts := none }] } }) ∧
    (findAct s (.ordinary run who) = some a → speculative s a = false → a.held = [] → left → Does s (.heldEffectRelease run who) s) ∧
    (findAct s (.ordinary run who) = some a → speculative s a = false → a.held = [] → ¬ left → a.status = .ended →
      (a.deferred = [] → Does s (.heldEffectRelease run who) s) ∧
      (a.deferred ≠ [] → Does s (.heldEffectRelease run who) (putAct raises { a with deferred := [] }))) ∧
    (findAct s (.ordinary run who) = some a → speculative s a = false → a.held = [] → ¬ left → a.status ≠ .ended → fromImage s a = b →
      let delivers := fun (u : State) => ∃ w, exec (.heldEffectRelease run who) s = .next w ∧ (let d := deliverTrap u b.key
        (∀ x, findAct d b.key = some x → x.saved = none → w = d) ∧ (∀ x, findAct d b.key = some x → w = toImage d x))
      (a.saved = none → b = a) ∧ (b.frozen = none → Does s (.heldEffectRelease run who) s) ∧
      (b.frozen = some f → (f.stage = .held → delivers (putAct s { b with frozen := some { f with
          record := { f.record with cause := f.record.cause ||| BitVec.ofNat 64 (2 ^ 20) } } })) ∧
        (f.stage = .behind → delivers (putAct s b)) ∧
        (f.stage ≠ .held → f.stage ≠ .behind → Does s (.heldEffectRelease run who) s))) ∧
    (findRun s.dev run = some r → mayAdmit →
      let d := putRun s.dev { r with
        nextInstant := m + 1, instants := r.instants ++ [{ num := m, returned := rest + absentCount r m * share }] }
      Does s (.instantAdmission run)
        (afterChange { s with dev := { d with others := d.others ++ initialActs r s.dev.cycle m share } } run)) ∧
    (findRun s.dev run = some r → ¬ mayAdmit → Does s (.instantAdmission run) s) ∧
    (findRun s.dev run = some r → r.instants.find? (fun j => j.num = inst) = some i →
      (i.returned ≠ 2 ^ 63 → Does s (.instantComplete run inst) s) ∧
      (i.returned = 2 ^ 63 → inst ≠ 2 ^ 48 - 1 → Does s (.instantComplete run inst)
        (afterChange (forgetInstant (resolveRest run inst r.image.conds s) run inst) run)) ∧
      (i.returned = 2 ^ 63 → inst = 2 ^ 48 - 1 → Does s (.instantComplete run inst)
        (tearDown (forgetInstant (resolveRest run inst r.image.conds s) run inst) run))) ∧
    (∀ t ∈ initialActs r s.dev.cycle m share, t.status = .pending ∧ t.weight = BitVec.ofNat 64 share ∧ t.stamp.inst = m ∧
      readS t 1 = r.arg ∧ tagS t 1 = 0 ∧ t.fpc = 1 ∧ t.seq = 0 ∧ t.loops = [] ∧ t.clocks[0] = Clock.base)

/-! ## Placement, power and banks (R191-R195, R228, R401) -/

/-- R9, R191, R192, R195, R228, R240, R401: a distributor places the activation the keys choose on its least occupied eligible core,
in the lowest slot and the lowest free banks, ready at its task's entry, task 0 at the image's, a saved one with what its context
holds, that of CTXSV as its image now stands; the core's live lines are gone. One that comes to run beside another activation of its
stamp reads live memory at the home, as the other does from then on, and comes only while no live store is read by some parties only,
as a handler does. An activation of a task that reads or writes a STAGED tensor waits for those of lower phases that write it, and one of
a task that writes it for those that read it too, for the ones that may still be spawned as well. The distributor
wakes the lowest gated core of its die that is not excluded, at most one in a cycle, while more activations that may come to the die are
left waiting, non-speculative ones for over 12,000 cycles or speculative ones with L at or above PWAKE.THRESH, than the waking cores
have slots; in the cycle of a resolution a distributor goes by the likelihoods from before it. Where a lower die chooses the same activation it is that die's, and the other chooses
again in the next cycle. A core empty for 60,000 cycles is gated, awake 12,000 after its wake began; a bank is zero and free 512
cycles after a slot's release; an event wakes the halted slots of a steward.
(Log 27: a waking core counts as eight slots, and who waits for a die; the slot and the choice among equals. Log 39: one counter of core cycles. Log 43: the
live lines of a core at a placement, and the activations that read at the home. Log 51: the activations that may still be spawned. Log 19: the image of a saved activation. Log 68: two distributors that choose one activation. Log 76: the likelihoods of a cycle.) -/
def Obligations.PlacementAndPower : Prop :=
  ∀ (s : State) (die : Fin 4) (core : Fin 32) (bank : Fin 16) (a : Act) (c t k : Nat) (r : Run) (x : Task) (g : Saved),
    let y := getCore s.dev core.val
    let gated := fun (j : Nat) => (getCore s.dev j).power = .gated ∧ (getCore s.dev j).excluded = false
    let beside := ∃ z ∈ acts s, z.key ≠ a.key ∧ kin z.key a.key = true ∧ z.status ≠ .ended ∧ z.status ≠ .retired
    let reads := fun (w : Tensor) => w.readers.getD []
    let writes := fun (w : Tensor) => w.writers.getD []
    let seen := placementView s
    let able := fun (d : Fin 4) => (acts s).filter fun a => startable seen a && (bestCore seen d.val a).isSome
    let l := able die
    let v := s.dev.pointers[die.val]
    let chosen := fun (d : Fin 4) => chooseAct seen s.dev.pointers[d.val] (able d)
    let b := fromImage s a
    let p := placeOn (putAct s b) b c
    let marks := fun (u : State) (z : Option ActKey) => { u with dev := { u.dev with
      placedAt := u.dev.placedAt.set die.val (u.dev.cycle + 1), placedKey := u.dev.placedKey.set die.val z } }
    let m := marks p (some a.key)
    let placed := { m with dev := { m.dev with pointers := m.dev.pointers.set die.val (movePointer seen v a l) } }
    let more := fun (u : State) => startWake ((waiters (placementView u)).foldl (requestFor die.val) u) die
    let step_ := Instr.distributorPlacement die
    let free := s.dev.placedAt[die.val] ≤ s.dev.cycle
    let lowerChooses := ∃ d, d < die ∧ s.dev.placedAt[d.val] ≤ s.dev.cycle ∧ ∃ b, chosen d = some b ∧ b.key = a.key
    let lowerTook := ∃ d, d < die ∧ s.dev.placedAt[d.val] = s.dev.cycle + 1 ∧ ∃ z w, s.dev.placedKey[d.val] = some z ∧
      findAct s z = some w ∧ (bestCore seen die.val { w with place := none, status := .pending }).isSome = true ∧
      prefers seen v { w with place := none, status := .pending } a = true
    (free → chosen die = some a → ¬ lowerChooses → ¬ lowerTook → bestCore seen die.val a = some c →
      Does s step_ (more placed)) ∧
    (free → chosen die = some a → lowerChooses → Does s step_ (more s)) ∧
    (free → chosen die = some a → ¬ lowerChooses → lowerTook → Does s step_ (more (marks s none))) ∧
    (free → l = [] → Does s step_ (more s)) ∧
    (s.dev.cycle < s.dev.placedAt[die.val] → Does s step_ (more s)) ∧
    (findAct s a.key = some a → actRun s a = some r → imgTask r.image a.task = some x → lowestSlot (putAct s b) c = some k →
      let at_ : Place := { core := c, slot := k, banks := (freeBankList (getCore s.dev c)).take (taskBanks r.image a.task) }
      (a.saved = none → findAct p a.key = some { a with
        status := .ready, pc := if a.task = 0 then r.image.entry else x.entry, place := some at_, atHome := decide beside }) ∧
      (beside → ∀ z ∈ acts p, kin z.key a.key = true → z.atHome = true) ∧
      (a.saved = some g → ∃ z, findAct p a.key = some z ∧ z.place = some at_ ∧ z.saved = none ∧ z.s = b.s ∧ z.v = b.v ∧
        z.sTag = b.sTag ∧ z.vTag = b.vTag ∧ z.clocks = b.clocks ∧ z.loops = b.loops ∧ z.pc = b.pc ∧ z.seq = b.seq ∧
        z.deferred = b.deferred ∧ z.frozen = b.frozen ∧ (b.frozen = none → z.status = .ready ∧ z.handle = 0 ∧ z.snapshot = [] ∧
          z.inflight = b.inflight ++ b.snapshot.map fun f => { f with due := b.adv + f.due })) ∧
      (c < 32 → (getCore p.dev c).l1 = [] ∧ (getCore p.dev c).l1Die = [] ∧ (getCore p.dev c).l1Pref = [])) ∧
    (beside ∨ isHandler a = true → (∃ z ∈ s.dev.liveq, z.reach ≠ 0) → startable s a = false) ∧
    (∀ w ∈ r.image.tensors, actRun s a = some r → w.order = .staged → (a.stamp.task ∈ reads w ∨ a.stamp.task ∈ writes w) →
      (∀ z ∈ runActs s r.num, z.status ≠ .retired → phaseLt (phaseOf z.stamp) (phaseOf a.stamp) = true →
        (z.stamp.task ∈ writes w ∨ (a.stamp.task ∈ writes w ∧ z.stamp.task ∈ reads w) → startable s a = false) ∧
        (∀ v ∈ writes w, z.stamp.task < v → phaseLt (z.stamp.inst, v) (phaseOf a.stamp) = true → findRun s.dev r.num = some r →
          (∃ i u sl, codeWord r.image.code (4 * i) = some u ∧ decodeWord u = some sl ∧
            ∃ k d e f, sl.instr = .spawn k d e f ∨ sl.instr = .spawnc k d e f) → startable s a = false)) ∧
      (a.stamp.task ∈ writes w → speculative s a = true → startable s a = false)) ∧
    (∀ z, z ∈ wakers s die.val ↔ z ∈ acts s ∧ startable s z = true ∧ fitsAnywhere s z = false ∧ mayUseDie s die.val z = true ∧
      ((speculative s z = false ∧ z.waitSince + 12000 < s.dev.cycle) ∨
        (speculative s z = true ∧ s.dev.pwake.toNat % 65536 ≤ actLike s z))) ∧
    ((∃ z ∈ wakers seen die.val, speculative seen z = false) → s.dev.wokeAt[die.val] ≤ s.dev.cycle →
      wakingSlots s die.val < (wakers seen die.val).length → c / 8 = die.val → gated c → (∀ j, j < c → j / 8 = die.val → ¬ gated j) →
      ∃ u, exec (.nonSpeculativeWaitExpiry die) s = .next u ∧ startWake s die = u ∧
        getCore u.dev c = { getCore s.dev c with power := .waking (s.dev.cycle + 12000) } ∧ u.act = s.act) ∧
    ((∀ z ∈ wakers seen die.val, speculative seen z = true) ∨ (wakers seen die.val).length ≤ wakingSlots s die.val →
      Does s (.nonSpeculativeWaitExpiry die) s) ∧
    (y.power = .awake → coreActs s core.val = [] → y.excluded = true ∨ y.emptySince + 60000 ≤ s.dev.cycle →
      Does s (.corePowerGate core) { s with dev := putCore s.dev core.val { y with power := .gated, l1 := [], l1Die := [], l1Staged := [], l1Pref := [] } }) ∧
    (coreActs s core.val ≠ [] → Does s (.corePowerGate core) s) ∧
    (y.power = .waking t → t ≤ s.dev.cycle → Does s (.coreWakeComplete core)
      { s with dev := putCore s.dev core.val { y with power := .awake, emptySince := s.dev.cycle } }) ∧
    (y.power = .waking t → s.dev.cycle < t → Does s (.coreWakeComplete core) s) ∧
    (∀ q, a.place = some q → q.core < 32 → bank.val ∈ q.banks →
      (getCore (leaveSlot s a).dev q.core).banks[bank.val] = .clearing (s.dev.cycle + 512)) ∧
    (y.banks[bank.val] = .clearing t → s.dev.cycle < t → Does s (.scratchBankCleared core bank) s) ∧
    (y.banks[bank.val] = .clearing t → t ≤ s.dev.cycle → ∃ u, exec (.scratchBankCleared core bank) s = .next u ∧
      (getCore u.dev core.val).banks[bank.val] = .free ∧ u.act = s.act ∧ u.dev.others = s.dev.others ∧
      (memWf s.dev.mem = true → ∀ b, memRead u.dev.mem b =
        if 2 ^ 41 + core.val * 2 ^ 21 + bank.val * 2 ^ 17 ≤ b ∧ b < 2 ^ 41 + core.val * 2 ^ 21 + (bank.val + 1) * 2 ^ 17 then 0
        else memRead s.dev.mem b)) ∧
    (∀ q, s.act.key = .steward die q → s.act.place = some { core := 32 + die.val, slot := q.val, banks := [] } →
      s.act.status = .halted → ∃ u, exec (.stewardWake die) s = .next u ∧ u.act = { s.act with status := .ready } ∧
        u.dev.mem = s.dev.mem)

/-! ## Cells and live memory (R247-R264, R269, R270) -/

/-- R247-R252, R256, R258-R263, R267-R272, R287-R290, R294, R329, R384: an entry with a cell and room joins its cell's history, and
the readers of its container at a later phase whose prior it changes get a notice; a notice squashes its reader unless a case of R261
drops it, and the ridge may then move. A squashed activation is pending under a raised incarnation with its start registers, SEQ 0 and
its first weight, holds nothing, has no entry or record in a cell or on its way, and its children are gone. A cell folds its phases
below the ridge: the words of its container become what they are as of the ridge, of one phase of stores each byte that of the last
store which writes it, and every other byte stays; an uncorrectable error there tears the run down. An ORDERED ATOMR's value, the word
as of the phases before under the stores, then the ATOMRs, of its phase before it, reaches its register once its lower siblings are
done. A live access is performed at its home in its turn: after the earlier ones of its program order to the word, a trapped
activation and its handler sharing one, after an earlier FENCE or LDACQ, a released one after those released before it, a release or
FENCE after all that every party of its scope must see, an LDACQ after the stores to its word that only some parties read where either
is at device scope, an update that ends a generation after the bytes it counts. A store or release leaves its bytes, an atomic the
result of its operation in the w/8 bytes it names, a count COUNT and GEN of R329, and nothing else changes; a live ATOMR's value is the
one found, and so is an LDACQ's, but where it keeps what stood before its bundle; lines of its die that may not have read it miss it.
(Log 24: the 17th entry. Log 43: when a live access is performed, its reach and order, who reads at the home, a kept value. Log 44: the
lines that miss a store. Log 51: the siblings an ATOMR waits for. Log 58: an ATOM of a word with an error.) -/
def Obligations.CellsAndLiveWrites : Prop :=
  (
  ∀ (s : State) (n run word seq val w operand : Nat) (q : CellReq) (x : Notice) (a b : Act) (c : Cell) (y : LiveReq) (st : Stamp)
    (p : Pend) (op : AtomOp) (sc : Scope) (ptr k : Nat) (kept : Bool) (r : Run) (bs : List Byte),
    let folded := { s with dev := foldCell s.dev q.word (ridgeOr s q.run) }
    let taken := { folded.dev with cellq := folded.dev.cellq.erase q }
    let dropped := { s with dev := { s.dev with notices := s.dev.notices.eraseIdx n } }
    let stale := a.incarnation ≠ x.inc ∨ a.status = .retired ∨ (a.status = .pending ∧ a.saved = none)
    let slotOnly := ∀ r st k, y.who ≠ .handler r st k
    let oneOrder := fun (z : LiveReq) => z.who = y.who ∨ ∃ x, stampOfKey z.who = some x ∧ stampOfKey y.who = some x
    let before := ∃ z ∈ s.dev.liveq, oneOrder z ∧ z.seq < y.seq ∧ (touchesWords z y.addr (liveSpan y.op) = true ∨
      (∃ sc, z.op = .fence sc ∨ z.op = .acquire sc) ∨ (z.released = true ∧ y.released = true) ∨
      (∃ bs sc, y.op = .release bs sc ∧ y.unit = .slot ∧ (z.reach < scopeLevel sc ∨ reaches y.core z = false)) ∨
      ∃ sc, y.op = .fence sc ∧ (z.reach < scopeLevel sc ∨ reaches y.core z = false))
    let ends := memReadNat s.dev.mem (y.addr + 8) 8 % 2 ^ 48
    let narrow := ∃ z ∈ s.dev.liveq, touchesWords z y.addr 8 = true ∧
      (scopeLevel sc = 3 ∨ ∃ bs c, z.op = .release bs c ∧ scopeLevel c = 3) ∧ ((oneOrder z ∧ isOwnStore z = true ∧ z.seq < y.seq) ∨ reaches y.core z = true)
    let runs := s.dev.liveq[n]? = some y ∧ mayPerform s.dev n y = true ∧ slotOnly
    let mem := s.dev.mem
    let puts := fun (m : List Host.Cell) (at_ : Nat) (l : List Byte) =>
      ∀ i, memRead m i = if at_ ≤ i ∧ i < at_ + l.length then l.getD (i - at_) 0 else memRead mem i
    let performs := fun (f : List Host.Cell → Prop) => ∃ u, exec (.liveStorePerformed n) s = .next u ∧ f u.dev.mem
    let old := memReadNat mem y.addr (w / 8)
    let o := operand % 2 ^ w
    let sgn := fun (z : Nat) => sextInt w z
    let sum := (memReadNat mem y.addr 8 + k) % 2 ^ 48
    let gen := memReadNat mem y.addr 8 / 2 ^ 48
    let squashed := squash dropped a
    let lower := ∃ z ∈ runActs s run, phaseOf z.stamp = phaseOf st ∧ z.stamp.index < st.index ∧
      ¬ (z.status = .retired ∨ (z.status = .ended ∧ speculative s z = false))
    let spawns := 0 < st.index ∧ findRun s.dev run = some r ∧ (∃ i u sl, codeWord r.image.code (4 * i) = some u ∧
      decodeWord u = some sl ∧ ∃ k d e f, sl.instr = .spawn k d e f ∨ sl.instr = .spawnc k d e f) ∧
      ∃ z ∈ runActs s run, z.status ≠ .retired ∧ z.stamp.inst = st.inst ∧ z.stamp.task < st.task
    (s.dev.cellq[n]? = some q → behindOwn s.dev.cellq n q = false → cellAvailable s.dev q.word = true →
      badIn s.dev q.word 8 = false → cellEntries ((cellOrNew folded.dev q.word q.run).hist ++ [q.entry]) ≤ 16 →
      Does s (.cellRequestArrival n) (dropEndedHandler { folded with dev := acceptEntry taken q } q.who)) ∧
    (s.dev.cellq[n]? = some q → behindOwn s.dev.cellq n q = true → Does s (.cellRequestArrival n) s) ∧
    (s.dev.notices[n]? = some x → findAct s (.ordinary x.run x.stamp) = none →
      Does s (.repairNotice n) (afterChange dropped x.run)) ∧
    (s.dev.notices[n]? = some x → findAct s (.ordinary x.run x.stamp) = some a → stale →
      Does s (.repairNotice n) (afterChange dropped x.run)) ∧
    (s.dev.notices[n]? = some x → findAct s (.ordinary x.run x.stamp) = some a → ¬ stale →
      Does s (.repairNotice n) (afterChange squashed x.run) ∧
      (∀ z w, findCell squashed.dev w = some z → z.run = x.run → (∀ h ∈ z.hist, h.stamp ≠ a.stamp) ∧ ∀ h ∈ z.readers, h.stamp ≠ a.stamp) ∧
      (∀ z ∈ squashed.dev.cellq, z.run = x.run → z.entry.stamp ≠ a.stamp) ∧
      ((∀ z ∈ runActs s x.run, z.parent ≠ some a.stamp) → ∃ z, findAct squashed a.key = some z ∧ z.status = .pending ∧ z.place = none ∧
        z.saved = none ∧ z.frozen = none ∧ z.incarnation = a.incarnation + 1 ∧ z.seq = 0 ∧ z.weight = a.weight0 ∧ z.stamp = a.stamp ∧
        readS z 1 = a.arg ∧ tagS z 1 = 0 ∧ (∀ i : Fin 32, 2 ≤ i.val → tagS z i = 31) ∧ (∀ i : Fin 32, tagV z i = 31) ∧ z.loops = [] ∧
        z.held = [] ∧ z.pend = [] ∧ z.inflight = [] ∧ z.snapshot = [] ∧ z.deferred = [] ∧ z.handle = 0) ∧
      (((acts s).map (·.key)).Nodup → (∃ z ∈ acts s, runOfKey z.key = none) → ∀ z ∈ runActs s x.run, isHandler z = false → z.parent = some a.stamp → z.key ≠ a.key →
        findAct squashed z.key = none)) ∧
    (s.dev.cells[n]? = some c → badIn s.dev c.word 8 = false →
      Does s (.cellFold n) { s with dev := foldCell s.dev c.word (ridgeOr s c.run) }) ∧
    (s.dev.cells[n]? = some c → findCell s.dev c.word = some c → badIn s.dev c.word 8 = true →
      (∃ h ∈ c.hist, phaseLt (phaseOf h.stamp) (ridgeOr s c.run) = true) → let u := tearDown s c.run
      Does s (.cellFold n) { u with dev := { u.dev with reported := u.dev.reported ++ [c.word] } }) ∧
    (siblingsBelowDone s run st = true → (runActs s run).filter (fun b => b.stamp = st) = [a] → a.place.isSome = true →
      a.pend = [p] → p.wait = .atomr word seq → ownArrived s run word seq st = true →
      deliveredValue s.dev word seq st = some val → badIn s.dev word 8 = false → Does s (.atomrValueDelivery run st)
        (putAct s { a with pend := [{ p with wait := .ready, val := BitVec.ofNat 2048 val }] })) ∧
    (siblingsBelowDone s run st = false → Does s (.atomrValueDelivery run st) s) ∧
    (lower ∨ spawns → Does s (.atomrValueDelivery run st) s) ∧
    (runs → ∃ u, exec (.liveStorePerformed n) s = .next u ∧
      u.dev.mem = performOp mem y.addr y.op ∧ u.dev.liveq = s.dev.liveq.eraseIdx n ∧
      ((∀ o b z, y.op ≠ .atomr o b z) → (∀ sc, y.op ≠ .fence sc) → (∀ sc, y.op ≠ .acquire sc) →
        (∀ o b z, y.op = .atom o b z → badIn s.dev y.addr (liveSpan y.op) = false) → u.act = s.act ∧ u.dev.others = s.dev.others) ∧
      (y.op = .atom op w operand → badIn s.dev y.addr (liveSpan y.op) = true → findAct s y.who = some a → a.status ≠ .ended →
        a.status ≠ .retired → a.deferred.length < 8 → ∃ e, findAct u y.who = some { a with deferred := a.deferred ++ [e] } ∧
          recCode e = 0x19 ∧ e.info = BitVec.ofNat 64 (memLevel y.addr)) ∧
      (y.op = .atomr op w operand → findAct s y.who = some a → a.pend = [p] → p.wait = .liveAtomr y.seq →
        badIn s.dev y.addr (w / 8) = false → findAct u y.who = some { a with
          pend := [{ p with wait := .ready, val := BitVec.ofNat 2048 old }] }) ∧
      (y.op = .acquire sc → findAct s y.who = some a → a.pend = [p] → p.wait = .acquire y.seq ptr kept → badIn s.dev y.addr 8 = false →
        let v := { s with dev := acquireLines { s.dev with liveq := s.dev.liveq.eraseIdx n } (actCore a) sc }
        findAct u y.who = some { a with
          pend := [{ p with wait := .ready, val := if kept then p.val else vecOfBytes (liveNow v a y.seq y.addr 8) }] }) ∧
      (y.unit ≠ .agent → ∀ z : Fin 32, z.val / 8 = y.core / 8 → y.core < 32 → y.unit ≠ .slot ∨ (z.val ≠ y.core ∧ y.reach ≠ 2 ∧
        ∀ b ∈ acts s, (b.key = y.who ∨ ∃ x, stampOfKey b.key = some x ∧ stampOfKey y.who = some x) → actCore b ≠ z.val) →
        ∀ l ∈ (getCore u.dev z.val).l1, l.1 ∈ sectorsOf y.addr (liveSpan y.op) → l.1 ∈ (getCore u.dev z.val).l1Die)) ∧
    (runs → memWf mem = true →
      (y.op = .store bs ∨ y.op = .release bs sc → performs fun m => puts m y.addr bs) ∧
      ((y.op = .fence sc ∨ y.op = .acquire sc) → performs fun m => puts m y.addr []) ∧
      (w = 32 ∨ w = 64 → op ≠ .xadd32 → y.op = .atom op w operand ∨ y.op = .atomr op w operand →
        performs fun m => puts m y.addr (bytesOfNat (w / 8) (match op with
          | .add => (old + o) % 2 ^ w | .fetchadd => (old + o) % 2 ^ w | .swap => o | .cas e => if old = e % 2 ^ w then o else old
          | .min => if sgn old ≤ sgn o then old else o | .fetchmin => if sgn old ≤ sgn o then old else o
          | .max => if sgn old ≤ sgn o then o else old | .fetchmax => if sgn old ≤ sgn o then o else old
          | .minn => min old o | .maxn => max old o | .and => old &&& o | .or => old ||| o | .xor => old ^^^ o | .xadd32 => old))) ∧
      (y.op = .atom .xadd32 w operand → performs fun m => puts m y.addr (bytesOfNat 16
        (xadd32Container (memReadNat mem y.addr 32) (sextInt 32 (memReadNat mem y.addr 32 / 2 ^ 128)) operand))) ∧
      (y.op = .count k → performs fun m => puts m y.addr (bytesOfNat 8 (if ends = 0 then sum + 2 ^ 48 * gen
        else sum % ends + 2 ^ 48 * ((gen + sum / ends) % 65536)))) ∧
      (y.op = .status k → k < 65536 → performs fun m => if memReadNat mem (y.addr + 8) 8 / 2 ^ 48 = 0
        then puts m (y.addr + 8) (bytesOfNat 8 (ends + 2 ^ 48 * k)) else puts m y.addr [])) ∧
    (s.dev.liveq[n]? = some y → mayPerform s.dev n y = false → Does s (.liveStorePerformed n) s) ∧
    (s.dev.liveq[n]? = some y → before → Does s (.liveStorePerformed n) s) ∧
    (s.dev.liveq[n]? = some y → y.op = .acquire sc → narrow → Does s (.liveStorePerformed n) s) ∧
    (s.dev.liveq[n]? = some y → y.op = .count k → ends ≠ 0 → ends ≤ (memReadNat mem y.addr 8 % 2 ^ 48 + k) % 2 ^ 48 →
      (∃ z ∈ s.dev.liveq, countedWith s.dev y k z = true) → Does s (.liveStorePerformed n) s) ∧
    (b ∈ acts s → b.atHome = true → b.place.isSome = true → perform (.widen n) s = .next s)) ∧
  (
  ∀ (d : Dev) (q : CellReq) (word j i : Nat) (rd ph : Nat × Nat) (h : Hist) (z : Notice) (st : Stamp) (seq v : Nat) (op : AtomOp) (n o : Nat)
    (l : List Hist),
    let base := word / 32 * 32
    let f := foldCell d word rd
    let due := fun (g : Hist) => phaseLt (phaseOf g.stamp) rd = true
    let inWord := ∀ m < 4, ∀ g ∈ histOf d (base + 8 * m), match g.op with
      | .store _ => True | .atomr _ n o => 8 * o + n ≤ 64 | .atom p n o => p = .xadd32 ∨ 8 * o + n ≤ 64
    let t := acceptEntry d q
    let readers := fun (r : Reader) (c : Cell) => ∃ m < 4, findCell d (q.word / 32 * 32 + 8 * m) = some c ∧ r ∈ c.readers ∧
      phaseLt (phaseOf q.entry.stamp) (phaseOf r.stamp) = true ∧
      r.prior ≠ BitVec.ofNat 64 (prior t (q.word / 32 * 32 + 8 * m) (phaseOf r.stamp))
    let below := (histOf d word).filter fun g => phaseOf g.stamp = phaseOf st &&
      (g.stamp.index < st.index || (g.stamp.index = st.index && g.seq < seq)) &&
      !unseenEngine d ((findCell d word).map fun c => (c.run, st)) seq g
    (histOf t q.word = histOf d q.word ++ [q.entry] ∧ t.mem = d.mem ∧
      (z ∈ t.notices ↔ z ∈ d.notices ∨ ∃ r c, readers r c ∧
        z = { run := c.run, stamp := r.stamp, inc := r.inc, cause := phaseOf q.entry.stamp })) ∧
    (j < 4 → ∀ g, g ∈ histOf f (base + 8 * j) ↔ g ∈ histOf d (base + 8 * j) ∧ ¬ due g) ∧
    (memWf d.mem = true → (i < base ∨ base + 32 ≤ i → memRead f.mem i = memRead d.mem i) ∧
      (inWord → j < 4 → memReadNat f.mem (base + 8 * j) 8 = prior d (base + 8 * j) rd) ∧
      ((∀ m < 4, ∀ g ∈ histOf d (base + 8 * m), due g → phaseOf g.stamp = ph ∧ ∃ k, g.op = .store k) → j < 4 → i < 8 →
        ((∀ g ∈ histOf d (base + 8 * j), due g → writesByte i g = false) →
          memRead f.mem (base + 8 * j + i) = memRead d.mem (base + 8 * j + i)) ∧
        (h ∈ histOf d (base + 8 * j) → due h → writesByte i h = true →
          (∀ g ∈ histOf d (base + 8 * j), due g → writesByte i g = true → g = h ∨ histLt g h = true) →
          memRead f.mem (base + 8 * j + i) = BitVec.ofNat 8 (h.val / 2 ^ (8 * i))))) ∧
    (h ∈ histOf d word → h.stamp = st → h.seq = seq → h.op = .atomr op n o →
      (∀ g ∈ histOf d word, g.stamp = st → g.seq = seq → g = h) → deliveredValue d word seq st =
        some (applyAtomrs below (applyStores below (prior d word (phaseOf st))) / 2 ^ (8 * o) % 2 ^ n)) ∧
    (applyAtomrs [] v = v ∧ ((∀ g ∈ l, histLt g h = true) → h.op = .atomr op n o →
      applyAtomrs (l ++ [h]) v = atomWord op n o (applyAtomrs l v) h.val)) ∧
    (8 * o + n ≤ 64 → v < 2 ^ 64 → let e := h.val % 2 ^ n; let x := v / 2 ^ (8 * o) % 2 ^ n; let y := atomWord op n o v h.val
      y < 2 ^ 64 ∧ y % 2 ^ (8 * o) = v % 2 ^ (8 * o) ∧ y / 2 ^ (8 * o + n) = v / 2 ^ (8 * o + n) ∧ (n = 32 ∨ n = 64 →
        (op = .add ∨ op = .fetchadd → y / 2 ^ (8 * o) % 2 ^ n = (x + e) % 2 ^ n) ∧ (op = .swap → y / 2 ^ (8 * o) % 2 ^ n = e) ∧
        (∀ c, op = .cas c → y / 2 ^ (8 * o) % 2 ^ n = if x = c % 2 ^ n then e else x) ∧
        (op = .min ∨ op = .fetchmin → y / 2 ^ (8 * o) % 2 ^ n = if sextInt n x ≤ sextInt n e then x else e) ∧
        (op = .max ∨ op = .fetchmax → y / 2 ^ (8 * o) % 2 ^ n = if sextInt n x ≤ sextInt n e then e else x) ∧
        (op = .minn → y / 2 ^ (8 * o) % 2 ^ n = min x e) ∧ (op = .maxn → y / 2 ^ (8 * o) % 2 ^ n = max x e) ∧
        (op = .and → y / 2 ^ (8 * o) % 2 ^ n = x &&& e) ∧ (op = .or → y / 2 ^ (8 * o) % 2 ^ n = x ||| e) ∧
        (op = .xor → y / 2 ^ (8 * o) % 2 ^ n = x ^^^ e))))

/-! ## Engines (R312-R333, R415-R424) -/

/-- R314, R320-R322, R324, R326, R329-R333, R413, R417-R423: a feed unit reads its next entry into the buffer, or keeps the
failure in its place, and performs its oldest pushed entry, at most one a cycle; a copy engine performs the next element of a command it may run,
sums it and counts 256 bytes at a time, or keeps its failure; a command with no element left sets its STATUS, counts what is left
and is over, a failed one with ENG 12, which a speculative activation holds at once. A record is four live stores of 8 bytes before
the last update. A collective takes each member's command of its key and number, and when all have come
it takes its own contribution, then writes its result, or fails with cause 2 where a member is gone, with cause 1 where the commands
differ, with cause 4 where a member's write failed, be it reported after its command has matched, keeping the flags of what it had rounded and the bytes it had delivered.
A broadcast delivers ROOT's elements, a gather every member's in rank order, a reduction the sum, maximum or minimum of integers, the
exact sum of containers of one grid, cause 3 where grids differ, the exact sum of floating-point elements on the grid 99 below the
greatest exponent, rounded once, or in ARRIVAL mode one addition after another, the rounding device's element first.
(Log 11: the destination of a failed collective. Log 43: a live element of more than one word is taken first, its words each on their
own. Log 46: feeds. Log 49: a command without a slot. Log 50: the order of arrival, and a member's failure. Log 59: the order of the
causes.) -/
def Obligations.UnitsAndEngines : Prop :=
  (
  ∀ (s u w : State) (who : ActKey) (e : EReg) (a b : Act) (f : Feed) (bs : List Byte) (x : Trapped) (y : FeedEntry)
    (rest : List FeedEntry) (z : Option (Nat × Nat)) (die : Fin 4) (n code addr : Nat) (c : CopyCmd) (g : CollCmd) (p q : PeerCmd) (l1 l2 : List PeerCmd)
    (fl : Flags) (src : List Byte) (pf : PeerFault) (k0 i : Nat) (l : Located),
    let held := findAct s who = some a ∧ a.place.isSome = true ∧ feedOf a e = some f
    let k := f.pos + f.buf.length
    let fills := held ∧ f.batten.out = false ∧ f.buf.length < 8 ∧ k < battenEntries f.batten ∧ f.nextAt ≤ s.dev.cycle
    let reads := readElems a f.batten (entryElems f.batten k).2 (entryElems f.batten k).1 s
    let put := fun (g : Feed) => putAct u { b with feeds := b.feeds.set e.val (some g) }
    let per := entryElems f.batten (f.pos - f.buf.length)
    let total := copyTotal c.block
    let copies := s.dev.copies[die.val][n]? = some c ∧ findAct s c.who = some a ∧ mayStart s.dev die c = true
    let runs := { c with started := true }
    let left := fun (v : State) (h : Option CopyCmd) => { v with dev := setCopy v.dev die n h }
    let sends := fun (v : State) (op : LiveOp) => { v with dev := { v.dev with liveq := v.dev.liveq ++ [{
      who := a.key, seq := c.seq, addr := c.arrival, op := op, core := actCore a, reach := 0, released := false, unit := .engine
      counts := match op with | .status _ => some (c.arrival, 0) | _ => none }] } }
    let next := { runs with
      done := c.done + 1, delivered := c.delivered + bs.length, uncounted := c.uncounted + bs.length, took := none
      crc := bs.foldl crcByte c.crc }
    let finished := copies ∧ (c.failed.isSome = true ∨ total ≤ c.done)
    let ends := finished ∧ engineHeld s a c.seq = false
    let raises := fun (v : State) => deferTo v c.who (deferredRec 0x16 addr (12 + 256 * code) c.stamp c.seq)
    let recorded := fun (seq w r : Nat) (l : List Byte) => (List.range 4).map fun i => ({
      who := a.key, seq := seq, addr := r + 8 * i, op := .store ((l.drop (8 * i)).take 8), core := actCore a, reach := 0
      released := false, unit := .engine, counts := some (w, 0) } : LiveReq)
    let queued := fun (v : State) (l : List LiveReq) => { v with dev := { v.dev with liveq := v.dev.liveq ++ l } }
    let colls := s.dev.colls[n]? = some g ∧ findAct s g.who = some a ∧ collWaits s a g = false
    let gone := ∃ m ∈ members g.block.group, m ≠ s.dev.number ∧
      (reachable s.dev m = false ∨ ∃ q ∈ g.peers, q.device = m ∧ q.torn = true)
    (fills → reads = (u, .ok bs) → findAct u who = some b → Does s (.feedFill who e)
      (put { f with buf := f.buf ++ [{ data := vecOfBytes bs, fault := none }], nextAt := s.dev.cycle + 1 })) ∧
    (fills → reads = (u, .error x) → findAct u who = some b → Does s (.feedFill who e)
      (put { f with buf := f.buf ++ [{ data := 0, fault := some (x.code, x.addr) }], nextAt := s.dev.cycle + 1 })) ∧
    (held → f.batten.out = true ∨ 8 ≤ f.buf.length ∨ battenEntries f.batten ≤ k ∨ s.dev.cycle < f.nextAt → Does s (.feedFill who e) s) ∧
    (held → f.batten.out = true → f.buf = y :: rest → f.nextAt ≤ s.dev.cycle →
      writeElems a f.batten f.seq per.2 per.1 (bytesOfNat 256 y.data.toNat) s = (u, z) → findAct u who = some b →
      Does s (.feedDrain who e) (put { f with buf := rest, fault := if f.fault.isSome then f.fault else z, nextAt := s.dev.cycle + 1 })) ∧
    (held → f.batten.out = false ∨ f.buf = [] ∨ s.dev.cycle < f.nextAt → Does s (.feedDrain who e) s) ∧
    (copies → c.failed = none → c.done < total →
      (copyElem s a runs = (u, .done bs) → next.uncounted < 256 ∨ c.done + 1 = total ∨ engineHeld u a c.seq = true →
        Does s (.copyEngineElement die n) (left u (some next))) ∧
      (copyElem s a runs = (u, .done bs) → 256 ≤ next.uncounted → c.done + 1 < total → engineHeld u a c.seq = false →
        Does s (.copyEngineElement die n)
          (left (sends u (.count 256)) (some { next with uncounted := next.uncounted - 256 }))) ∧
      (copyElem s a runs = (u, .waits) → Does s (.copyEngineElement die n) (left u (some runs))) ∧
      (copyElem s a runs = (u, .took bs) → Does s (.copyEngineElement die n) (left u (some { runs with took := some bs }))) ∧
      (copyElem s a runs = (u, .failed code addr) → Does s (.copyEngineElement die n) (left u (some { runs with
        failed := some (code, addr), took := none, uncounted := c.uncounted + (total - c.done) * 2 ^ c.block.esize })))) ∧
    (s.dev.copies[die.val][n]? = some c → findAct s c.who = some a → c.started = false →
      4 ≤ (s.dev.copies[die.val].filter (·.started)).length → Does s (.copyEngineElement die n) s) ∧
    (ends → c.closing = false → c.record = none → c.failed = none →
      Does s (.copyEngineElement die n) (left s (some { c with closing := true }))) ∧
    (ends → c.closing = false → c.record = none → c.failed = some (code, addr) →
      Does s (.copyEngineElement die n) (left (sends s (.status code)) (some { c with closing := true }))) ∧
    (ends → c.closing = false → c.record = some k0 → k0 % 8 = 0 → let done := some { c with closing := true }
      (c.failed = none → Does s (.copyEngineElement die n) (left (queued s (recorded c.seq c.arrival k0 (copyRecord c))) done)) ∧
      (c.failed = some (code, addr) → Does s (.copyEngineElement die n)
        (left (queued (sends s (.status code)) (recorded c.seq c.arrival k0 (copyRecord c))) done))) ∧
    (ends → c.closing = true → 256 < c.uncounted → Does s (.copyEngineElement die n)
      (left (sends s (.count 256)) (some { c with uncounted := c.uncounted - 256 }))) ∧
    (ends → c.closing = true → 0 < c.uncounted → c.uncounted ≤ 256 → let v := left (sends s (.count c.uncounted)) none
      (c.failed = none → Does s (.copyEngineElement die n) v) ∧
      (c.failed = some (code, addr) → Does s (.copyEngineElement die n) (if c.raised then v else raises v))) ∧
    (finished → engineHeld s a c.seq = true → (c.failed = some (code, addr) → c.raised = false → speculative s a = true →
        Does s (.copyEngineElement die n) (left (raises s) (some { c with raised := true }))) ∧
      (c.failed = none ∨ c.raised = true ∨ speculative s a = false → Does s (.copyEngineElement die n) s)) ∧
    (s.dev.copies[die.val][n]? = none → Does s (.copyEngineElement die n) s) ∧
    (s.dev.colls[n]? = some g → p.device ∈ members g.block.group → (∀ q ∈ g.peers, q.device ≠ p.device) →
      (p.group = g.block.group → p.tag = g.block.tag → p.ordinal = g.ordinal → Does s (.collectiveMatch n p) { s with
        dev := { s.dev with colls := s.dev.colls.set n { g with peers := g.peers ++ [p] } } }) ∧
      (p.group ≠ g.block.group ∨ p.tag ≠ g.block.tag ∨ p.ordinal ≠ g.ordinal → Does s (.collectiveMatch n p) s)) ∧
    (s.dev.colls[n]? = some g → p.device ∈ members g.block.group → p.group = g.block.group → p.tag = g.block.tag →
      p.ordinal = g.ordinal → g.peers = l1 ++ q :: l2 → q.device = p.device → (∀ v ∈ l1 ++ l2, v.device ≠ p.device) →
      Does s (.collectiveMatch n p) { s with dev := { s.dev with colls := s.dev.colls.set n { g with peers := l1 ++ { q with
        torn := q.torn || p.torn, failed := if q.failed.isSome then q.failed else p.failed } :: l2 } } }) ∧
    (colls → allArrived s.dev.number g = true → collEnd s a g = (u, .done bs fl) →
      (g.took = none → readContribution a g.seq g.block.src (collSize g.block.type) g.block.count 0 s = (w, .ok src) →
        Does s (.collectiveComplete n) { w with dev := { w.dev with colls := w.dev.colls.set n { g with took := some src } } }) ∧
      (g.took = some src → Does s (.collectiveComplete n)
        (closeColl u n a g none (collRecord s.dev.number g fl 0 0 bs.length)))) ∧
    (colls → gone → Does s (.collectiveComplete n) s ∧
      Does s (.collectiveFailure n 2 0x16) (failColl s n a g 2 0x16 0 0 noFlags)) ∧
    (colls → ¬ gone → allArrived s.dev.number g = true → (∃ q ∈ g.peers, agrees s.dev.number g.block q = false) →
      Does s (.collectiveFailure n 1 0x16) (failColl s n a g 1 0x16 0 0 noFlags)) ∧
    (colls → ¬ gone → allArrived s.dev.number g = true → (∀ q ∈ g.peers, agrees s.dev.number g.block q = true) →
      g.peers.findSome? (·.failed) = some pf → g.took = some src →
      let k := min pf.delivered (collBytes g.block / collSize g.block.type) * collSize g.block.type
      let rounded := roundedFlags s.dev.number g.block (arrivalOrder s.dev.number src g.peers) pf.rounded
      Does s (.collectiveFailure n 4 pf.code)
        (failColl s n a g 4 pf.code 0 k (if g.block.op < 2 then rounded else noFlags))) ∧
    (colls → ¬ gone → allArrived s.dev.number g = false → Does s (.collectiveFailure n 2 0x16) s) ∧
    (let agreed := colls ∧ ¬ gone ∧ allArrived s.dev.number g = true ∧ (∀ q ∈ g.peers, agrees s.dev.number g.block q = true) ∧
        ∀ q ∈ g.peers, q.failed = none
      let esz := collSize g.block.type
      let gives := collResult s.dev.number g.block (arrivalOrder s.dev.number src g.peers)
      let writes := writeResult a g.seq g.arrival g.block.dst esz (collBytes g.block / esz) 0 bs s
      (agreed → g.took = some src → gives = some (bs, fl) → (writes = (u, none) → collEnd s a g = (u, .done bs fl)) ∧
        (writes = (u, some (x, k0)) →
          Does s (.collectiveFailure n 4 x.code) (failColl u n a g 4 x.code x.addr (k0 * esz) fl))) ∧
      (agreed → g.took = some src → gives = none →
        Does s (.collectiveFailure n 3 0x18) (failColl s n a g 3 0x18 0 0 noFlags)) ∧
      (agreed → g.took = none → readContribution a g.seq g.block.src esz g.block.count 0 s = (u, .error x) →
        Does s (.collectiveFailure n 4 x.code) (failColl u n a g 4 x.code x.addr 0 noFlags))) ∧
    (∀ esz ptr, writeResult a c.seq c.arrival ptr esz 0 i bs s = (s, none) ∧
      (locateServed s a (ptr + i * esz) esz esz .store true = (u, .error x) →
        writeResult a c.seq c.arrival ptr esz (k0 + 1) i bs s = (u, some (x, i))) ∧
      (locateServed s a (ptr + i * esz) esz esz .store true = (u, .ok l) → l.mode = .live → l.addr % 8 + esz ≤ 8 → 0 < esz →
        esz ≤ bs.length → writeResult a c.seq c.arrival ptr esz (k0 + 1) i bs s =
          writeResult a c.seq c.arrival ptr esz k0 (i + 1) (bs.drop esz) (queued u [{
            who := a.key, seq := c.seq, addr := l.addr, op := .store (bs.take esz), core := actCore a, reach := 0
            released := false, unit := .engine, counts := some (c.arrival, (i + 1) * esz) }]))) ∧
    (∀ z r, (g.record = none ∧ r = [] ∨ ∃ k, g.record = some k ∧ k % 8 = 0 ∧ bs.length = 32 ∧ r = recorded g.seq g.arrival k bs) →
      let all := collBytes g.block
      let req := fun (op : LiveOp) (w : Option (Nat × Nat)) => ({
        who := a.key, seq := g.seq, addr := g.arrival, op := op, core := actCore a, reach := 0, released := false
        unit := .engine, counts := w } : LiveReq)
      let status := match z with | some k => [req (.status k) (some (g.arrival, 0))] | none => []
      let counts := (List.range ((all + 255) / 256)).map fun i => req (.count (min 256 (all - 256 * i))) none
      closeColl s n a g z bs = { s with dev := { s.dev with
        colls := s.dev.colls.eraseIdx n, liveq := s.dev.liveq ++ status ++ r ++ counts } })) ∧
  (
  ∀ (own code cause k i : Nat) (c : CopyCmd) (g : CollCmd) (fl : Flags) (x : Byte) (st : Stamp) (seq : Nat) (l : List Byte)
    (src : List Byte) (peers : List PeerCmd),
    let ends := natAt l 16 6 = st.inst % 2 ^ 48 ∧ natAt l 22 1 = st.task % 256 ∧ natAt l 23 3 = st.index % 2 ^ 24 ∧
      natAt l 26 4 = seq % 2 ^ 32 ∧ natAt l 30 2 = 0 ∧ l.length = 32
    let order := peers.map fun p => ({
      device := p.device, src := if p.device = own then src else p.src, times := p.times } : Contribution)
    (l = copyRecord c → st = c.stamp → seq = c.seq → ends ∧
      natAt l 0 8 = (if c.failed.isSome then 0 else c.crc ^^^ (2 ^ 64 - 1)) % 2 ^ 64 ∧ natAt l 8 6 = c.delivered % 2 ^ 48 ∧
      natAt l 14 2 = (match c.failed with | some y => y.1 | none => 0) % 65536) ∧
    crcByte k x = (List.range 8).foldl (fun c _ => (c / 2) ^^^ (if c % 2 = 1 then 0xC96C5795D7870F42 else 0)) (k ^^^ x.toNat) ∧
    (l = collRecord own g fl code cause k → st = g.stamp → seq = g.seq → ends ∧ natAt l 0 4 = flagsNat fl ∧
      natAt l 4 2 = code % 65536 ∧ natAt l 6 1 = cause % 256 ∧ natAt l 8 8 = k % 2 ^ 64 ∧
      natAt l 7 1 = ((List.range 64).countP fun m => g.block.group.testBit m && decide (m < own)) % 256) ∧
    (arrivalOrder own src peers = if ∃ p ∈ peers, p.device = own then order
      else order ++ [{ device := own, src := src, times := [] }])) ∧
  (
  ∀ (own i j m : Nat) (b : CollBlock) (l : List Contribution) (bs : List Byte) (fl : Flags) (x : Contribution) (xs : List Nat)
    (y z : Nat) (f : FFmt),
    let n := collSize b.type
    let ms := members b.group
    let per := b.count / ms.length
    let device := if b.op = 1 then ms.getD (j / max 1 per) 0 else ms.headD 0
    let elem := fun (j : Nat) => reduceElem b (elemsOf b l j)
    let float := (b.type = 9 ∧ f = fmtBF16) ∨ (b.type = 10 ∧ f = fmtF32) ∨ (b.type = 11 ∧ f = fmtF64)
    let int := fun (w : Nat) => (b.type = 2 ∧ w = 32) ∨ (b.type = 3 ∧ w = 64)
    let log := fun (y : Nat) (k : Int) => let v := decodeF f y
      (∃ g m e, v = .fin g m e) ∧ (2 : ℚ) ^ k ≤ |fval v| ∧ |fval v| < (2 : ℚ) ^ (k + 1)
    let E := fun (y : Nat) => y / 2 ^ 128 % 2 ^ 32
    (∀ v, v ∈ ms ↔ v < 64 ∧ b.group.testBit v = true) ∧
    (b.op = 0 ∨ (b.op = 1 ∧ ms.length ∣ b.count) → j < b.count → roundingDevice b j = device) ∧
    (∃ o : List Contribution, o.Perm l ∧ o.Pairwise (fun u v => u.times.getD j 0 ≤ v.times.getD j 0) ∧ elemsOf b l j =
      (o.filter (fun u => u.device = roundingDevice b j) ++ o.filter (fun u => u.device ≠ roundingDevice b j)).map fun u =>
        natAt u.src (j * n) n) ∧
    (collResult own b l = some (bs, fl) →
      (b.op = 3 → l.find? (fun u => u.device = b.root) = some x → b.count * n ≤ x.src.length →
        bs = x.src.take (b.count * n) ∧ fl = noFlags) ∧
      (b.op = 2 → (∀ v ∈ ms, ∃ u, l.find? (fun w => w.device = v) = some u ∧ b.count * n ≤ u.src.length) → ms[i]? = some m →
        l.find? (fun u => u.device = m) = some x → j < b.count →
        natAt bs ((i * b.count + j) * n) n = natAt x.src (j * n) n ∧ bs.length = ms.length * b.count * n ∧ fl = noFlags) ∧
      (b.op = 0 → j < b.count → ∃ r, elem j = some r ∧ natAt bs (j * n) n = r.1 % 2 ^ (8 * n) ∧ bs.length = b.count * n) ∧
      (b.op = 1 → own ∈ ms → ms.length ∣ b.count → j < per → ∃ r, elem (rankOf b.group own * per + j) = some r ∧
        natAt bs (j * n) n = r.1 % 2 ^ (8 * n) ∧ bs.length = per * n) ∧
      (b.op < 2 → ∀ k, (flagsNat fl).testBit k = true ↔ ∃ j r, j < b.count ∧ roundingDevice b j = own ∧ elem j = some r ∧
        (flagsNat r.2).testBit k = true)) ∧
    (collResult own b l = none ↔ b.op ≠ 2 ∧ b.op ≠ 3 ∧ ∃ j, j < b.count ∧ elem j = none) ∧
    (∀ w, int w → xs ≠ [] → (∀ y ∈ xs, y < 2 ^ w) → (b.redop = 0 → reduceElem b xs = some (xs.sum % 2 ^ w, noFlags)) ∧
      (b.redop = 1 → ∃ r ∈ xs, reduceElem b xs = some (r, noFlags) ∧ ∀ y ∈ xs, sextInt w y ≤ sextInt w r) ∧
      (b.redop = 2 → ∃ r ∈ xs, reduceElem b xs = some (r, noFlags) ∧ ∀ y ∈ xs, sextInt w r ≤ sextInt w y)) ∧
    (b.type = 14 → xs ≠ [] → ((∃ y ∈ xs, ∃ z ∈ xs, E y ≠ E z) → reduceElem b xs = none) ∧
      ((∀ y ∈ xs, ∀ z ∈ xs, E y = E z) → ∃ v, reduceElem b xs = some (v, noFlags) ∧
        v % 2 ^ 125 = (xs.map (· % 2 ^ 125)).sum % 2 ^ 125 ∧ v / 2 ^ 128 = E (xs.headD 0) ∧
        ∀ k, 125 ≤ k → k < 128 → v.testBit k = xs.any (·.testBit k))) ∧
    (float → b.mode = 0 → ∃ r e s, reduceElem b xs = some r ∧
      ExactSum 125 e xs.length (fun i => some (decodeF f (xs.getD i 0))) { v := 0, sp := {} } s ∧
      ReadsOut f .rne s.sp (sextInt 125 s.v * (2 : ℚ) ^ e) r ∧ (∀ y ∈ xs, ∀ k, log y k → k - 99 ≤ e) ∧
      ((∃ y ∈ xs, ∃ k, log y k) → ∃ y ∈ xs, log y (e + 99))) ∧
    (float → b.mode = 1 → reduceElem b [y] = some (if isNaN (decodeF f y) then (quieten f y, flagNV (isSNaN (decodeF f y)))
        else (y, noFlags)) ∧
      ∀ r, xs ≠ [] → reduceElem b xs = some r → reduceElem b (xs ++ [z]) =
        some ((fAdd f .rne r.1 z).1, orFlags r.2 (fAdd f .rne r.1 z).2)))

/-- R338, R342, R343, R345-R353: a row with its data enters the array. Each column of the mode gets, modulo 2^96, the terms a * 2^s * w of
the row's elements a, one feed's or, of an MMAS, two feeds', each rounded alone to the nearest point of the tile's grid, even in a tie,
and the special bits of R91; w is the bank's weight in its format, absent only where the 2:4 structure leaves it out, and s the latch of
its block. Every other element stays, the row's hold ends 24 cycles later, and the command advances or is over. A WLD's entry joins its
bank, ready 8 cycles after the last; one row and one entry enter in a cycle; a hold whose time has come is dropped.
(Log 39: one counter of core cycles.) -/
def Obligations.ArraySteps : Prop :=
  (
  ∀ (s : State) (core : Fin 32) (m : MulCmd) (w : WldCmd) (a : Act) (f : Nat) (x y : FeedEntry) (g h : Feed) (ms : List MulCmd)
    (ws : List WldCmd) (rest more : List FeedEntry) (t : AReg) (row : Fin 64) (c1 c2 : List (Nat × Option Nat)) (k : Nat),
    let c := getCore s.dev core.val
    let b := bankOf c m.bank
    let old := c.tiles[m.tile.val]
    let r := m.first + m.done
    let per := lanes (fmt4Width m.afmt)
    let pops := fun (e : EReg) (x : FeedEntry) (g : Feed) (rest : List FeedEntry) => feedOf a e = some g ∧ g.batten.out = false ∧
      g.pos < battenEntries g.batten ∧ g.buf = x :: rest ∧ x.fault = none
    let after := fun (u : State) (who : ActKey) (e : EReg) (g : Feed) (rest : List FeedEntry) => ∃ a', findAct u who = some a' ∧
      feedOf a' e = some { g with buf := rest, pos := g.pos + 1 } ∧ a'.s = a.s ∧ a'.seq = a.seq
    let starts := c.mulq = m :: ms ∧ findAct s m.owner = some a ∧ b.cur = some f ∧ b.ready = true ∧ c.rowAt ≤ s.dev.cycle ∧
      (∀ v ∈ c.wq, v.bank = m.bank → m.serial ≤ v.serial) ∧ pops m.feed x g rest
    let elem := fun (k : Nat) => activationVal m.afmt (lane (fmt4Width m.afmt) (if k < per then x.data else y.data) (k % per))
    let latch := fun (k : Nat) => m.latches.getD (if m.sparse then k % 256 / 32 else if 4 ≤ f % 8 then k / 16 else k / 32) 0
    let term := fun (k j : Nat) (z : Option FVal) => match weightAt f b.entries k j with
      | none => z = some (.fin false 0 0)
      | some v => ∃ q, IsScaled (latch k) (elem k) q ∧ IsProduct q v z
    let entered := fun (u : State) (n : Nat) =>
      let d := getCore u.dev core.val
      let new := d.tiles[m.tile.val]
      d.rowAt = s.dev.cycle + 1 ∧ new.e = old.e ∧ new.tag = old.tag ∧ new.scales = old.scales ∧
      (∀ j, j < (if 4 ≤ f % 8 then 192 else 384) → ∃ z, (∀ k, k < n → term k j (z k)) ∧
        ExactSum 96 old.e n z (sumOfElem (getElem old r j)) (sumOfElem (getElem new r j))) ∧
      (∀ i j, j < 384 → i ≠ r ∨ (if 4 ≤ f % 8 then 192 else 384) ≤ j → getElem new i j = getElem old i j) ∧
      (old.busy = c1 ++ (r, none) :: c2 → (r, none) ∉ c1 → new.busy = c1 ++ (r, some (s.dev.cycle + 24)) :: c2) ∧
      (m.done + 1 = m.n → d.mulq = ms) ∧
      (m.done + 1 ≠ m.n → ∃ q, d.mulq = q :: ms ∧ q.done = m.done + 1 ∧ q = { m with done := q.done, added := q.added, holds := q.holds })
    (starts → m.sparse = false → ∃ u, exec (.arrayRowEntry core) s = .next u ∧ after u m.owner m.feed g rest ∧ entered u per) ∧
    (starts → m.sparse = true → pops (m.feed + 1) y h more → ∃ u, exec (.arrayRowEntry core) s = .next u ∧
      after u m.owner m.feed g rest ∧ after u m.owner (m.feed + 1) h more ∧ entered u (2 * per)) ∧
    (c.mulq = [] ∨ s.dev.cycle < c.rowAt → Does s (.arrayRowEntry core) s) ∧
    (c.wq = w :: ws → findAct s w.owner = some a → (∀ v ∈ c.mulq, v.bank = w.bank → w.serial ≤ v.serial) → pops w.feed x g rest →
      c.entryAt ≤ s.dev.cycle → ∃ u, exec (.weightEntry core) s = .next u ∧ after u w.owner w.feed g rest ∧
        let new := bankOf (getCore u.dev core.val) w.bank
        new.entries = (if w.done = 0 then [] else (bankOf c w.bank).entries) ++ [x.data] ∧ new.cur = some w.fmt ∧
        new.ready = false ∧ new.readyAt = (if w.done + 1 = streamLength w.fmt then some (s.dev.cycle + 8) else none) ∧
        (getCore u.dev core.val).entryAt = s.dev.cycle + 1 ∧
        (w.done + 1 = streamLength w.fmt → (getCore u.dev core.val).wq = ws) ∧
        (w.done + 1 ≠ streamLength w.fmt → ∃ q, (getCore u.dev core.val).wq = q :: ws ∧ q.done = w.done + 1 ∧
          q = { w with done := q.done, was := q.was })) ∧
    (c.wq = [] ∨ s.dev.cycle < c.entryAt → Does s (.weightEntry core) s) ∧
    (c.w0.readyAt = some k → k ≤ s.dev.cycle → Does s (.bankReady core)
      { s with dev := putCore s.dev core.val { c with w0 := { c.w0 with ready := true, readyAt := none } } }) ∧
    (c.w0.readyAt = none → c.w1.readyAt = some k → k ≤ s.dev.cycle → Does s (.bankReady core)
      { s with dev := putCore s.dev core.val { c with w1 := { c.w1 with ready := true, readyAt := none } } }) ∧
    (c.w0.readyAt = none → c.w1.readyAt = none → Does s (.bankReady core) s) ∧
    (c.tiles[t.val].busy = c1 ++ (row.val, some k) :: c2 → (∀ y ∈ c1, y.1 ≠ row.val) → k ≤ s.dev.cycle →
      ∃ u, exec (.busyBitClear core t row) s = .next u ∧ u.act = s.act ∧
        (getCore u.dev core.val).tiles[t.val] = { c.tiles[t.val] with busy := c1 ++ c2 })) ∧
  (
  ∀ (f k j x : Nat) (es : List Vec),
    let byte := fun (n i : Nat) => lane 8 (es.getD n 0) i
    let isInt := fun (v : FVal) (z : Int) => (∃ g m e, v = .fin g m e) ∧ fval v = z
    let code := fun (n w : Nat) (v : FVal) =>
      (n = 0 → v = decodeF fmtE4M3 w) ∧ (n = 1 → v = decodeF fmtE5M2 w) ∧ (n = 2 → isInt v (sextInt 8 w))
    let kept := byte (384 + j / 4) (64 * (j % 4) + k / 8)
    let nibble := if k / 4 % 2 = 0 then kept % 16 else kept / 16
    let dense := f / 256 % 2 = 0
    let sparse := f / 256 % 2 = 1
    let q4n := byte (j / 2) (128 * (j % 2) + k / 2)
    let is_ := fun (p : FVal → Prop) => ∃ v, weightAt f es k j = some v ∧ p v
    (dense → f % 8 ≤ 2 → is_ (code (f % 8) (byte j k))) ∧
    (dense → f % 8 = 3 → is_ fun v => isInt v
      (q4nValue (if k % 2 = 0 then q4n % 16 else q4n / 16) * byte (192 + j / 64) (4 * (j % 64) + k / 64))) ∧
    (dense → f % 8 = 4 → is_ fun v => v = decodeF fmtBF16 (lane 16 (es.getD j 0) k)) ∧
    (dense → f % 8 = 5 → is_ fun v => v = decodeF fmtF16 (lane 16 (es.getD j 0) k)) ∧
    (sparse → f % 8 ≤ 2 →
      (k % 4 = nibble % 4 → is_ (code (f % 8) (byte j (2 * (k / 4))))) ∧
      (k % 4 ≠ nibble % 4 → k % 4 = nibble / 4 → is_ (code (f % 8) (byte j (2 * (k / 4) + 1)))) ∧
      (k % 4 ≠ nibble % 4 → k % 4 ≠ nibble / 4 → weightAt f es k j = none)) ∧
    (List.range 16).map q4nValue = [-128, -93, -71, -55, -42, -30, -19, -9, 0, 10, 21, 33, 46, 62, 84, 127] ∧
    isInt (activationVal .i8 x) (sextInt 8 x) ∧ isInt (activationVal .n8 x) (x % 256 : Nat) ∧
    activationVal .e4m3 x = decodeF fmtE4M3 x ∧ activationVal .e5m2 x = decodeF fmtE5M2 x ∧
    activationVal .f16 x = decodeF fmtF16 x ∧ activationVal .bf16 x = decodeF fmtBF16 x)

/-! ## Packets and queues (R215-R222) -/

/-- R216, R218, R220, R221, R441: the head packet of a resident queue is judged for rejection once, as it reaches the head: a
rejected one leaves the ring, counted, with its code, and ERR is signalled when asked for. Otherwise START creates the run, or waits
while its queue has one or 1,024 runs exist,
GRANT raises the allowance to 2^48 at most, FENCE waits for its counters, SIGNAL adds to one, STOP tears the run down, mode 1
after its granted instants, MARKER keeps its tag; the packet then leaves the ring, and COMP is signalled. A push of another
device is decided here; an outcome that returns is written to its status word by the agent. At most 256 queues are resident.
(Log 27: the number of a run. Log 35: a new queue is not resident. Log 48: the status word of an outcome. Log 52: which frames and tiles
a run gets. Log 72: double declarations in its image. Log 70: a packet is judged once, and a STOP whose run
has gone completes.) -/
def Obligations.PacketsAndQueues : Prop :=
  ∀ (s : State) (q n dev tag code : Nat) (x : Queue) (p : Packet) (r : Run) (img : Image) (w : LaunchPush) (h : BitVec 32),
    let head := headPacket s q = some (x, p) ∧ findQueue s.dev q = some x
    let ring := fun (d : Dev) (z : Queue) => putQueue d { z with ring := z.ring.drop 1, parsed := z.parsed + 1, judged := false }
    let comp := fun (d : Dev) => if pktByte p 1 % 2 = 1 then addCounter d (pktByte p 2) 1 else d
    let ok := head ∧ pktTypeOk p = true ∧ (x.judged = true ∨ rejectCode s.dev x p = none)
    let steps := [(1, Instr.start q), (2, .grant q), (3, .fencePacket q), (4, .signal q), (5, .stop q), (6, .marker q)]
    let is_ := fun (ty : Nat) => ok ∧ pktByte p 0 = ty
    let gives := fun (i : Instr) (d : Dev) (z : Queue) => Does s i { s with dev := comp (ring d z) }
    let seen := { s with dev := putQueue s.dev { x with judged := true } }
    let raised := putRun s.dev { r with allowance := min (r.allowance + natAt p 8 6) (2 ^ 48) }
    let pushed := localPush s.dev h.toNat p
    let answered := { s.dev with remote := s.dev.remote.eraseIdx n }
    let status := fun (d : Dev) => { s with dev := { d with liveq := d.liveq ++ [{
      who := w.who, seq := w.seq, addr := w.status, op := .release (bytesOfNat 8 code) .system, core := w.core, reach := 0
      released := false, unit := .agent, counts := none }] } }
    (∀ y ∈ steps, head → pktTypeOk p = true → pktByte p 0 ≠ y.1 → Does s y.2 s) ∧
    (∀ y ∈ steps, head → pktTypeOk p = false ∨ pktByte p 0 = y.1 → x.judged = false → rejectCode s.dev x p = some code → Does s y.2
      (let d := ring s.dev { x with rejects := x.rejects + 1, rejectCode := code }
       { s with dev := if pktByte p 1 / 2 % 2 = 1 then addCounter d (pktByte p 3) 1 else d })) ∧
    (is_ 1 → x.run = none → freeRun s.dev 1024 0 = some n → (s.dev.images.find? fun y => y.1 = natAt p 4 4) = some (natAt p 4 4, img) →
      let t := { s with dev := putQueue (createRun seen.dev (newRun n x.index img p)) { x with run := some n, judged := true } }
      x.index = q → Does s (.start q) (completePacket t q p)) ∧
    (is_ 1 → x.run.isSome ∨ freeRun s.dev 1024 0 = none → Does s (.start q) seen) ∧
    (is_ 2 → x.run = some n → findRun s.dev n = some r → gives (.grant q) raised x) ∧
    (is_ 3 → (∀ j, j < pktByte p 1 / 16 → fenceMet s.dev p j = true) → gives (.fencePacket q) s.dev x) ∧
    (is_ 3 → (∃ j, j < pktByte p 1 / 16 ∧ fenceMet s.dev p j = false) → Does s (.fencePacket q) seen) ∧
    (is_ 4 → gives (.signal q) (addCounter s.dev (pktByte p 4) (BitVec.ofNat 64 (natAt p 8 8))) x) ∧
    (is_ 5 → x.run = some n → findRun s.dev n = some r → pktByte p 4 = 0 ∨ grantedLeft r = false →
      Does s (.stop q) (completePacket (tearDown seen r.num) q p)) ∧
    (is_ 5 → x.run = some n → findRun s.dev n = some r → pktByte p 4 = 1 → grantedLeft r = true → Does s (.stop q) seen) ∧
    (is_ 5 → x.run = none → x.judged = true → gives (.stop q) s.dev x) ∧
    (is_ 6 → gives (.marker q) s.dev { x with marker := BitVec.ofNat 64 (natAt p 8 8) }) ∧
    (s.dev.boot = .running → dev ≠ s.dev.number → reachable s.dev dev = true → Does s (.remotePush dev tag h p)
      { s with dev := { pushed.2 with replies := pushed.2.replies ++ [{ req := BitVec.ofNat 64 tag, status := 0, data := .code pushed.1 }] } }) ∧
    (s.dev.remote[n]? = some w → reachable s.dev w.device = true → code ∈ [1, 2, 4, 5] →
      Does s (.remotePushOutcome n code) (status answered)) ∧
    (s.dev.remote[n]? = some w → reachable s.dev w.device = false → code = 6 → Does s (.remotePushOutcome n code) (status answered)) ∧
    (s.dev.boot = .running → findQueue s.dev q = some x → (s.dev.queues.filter fun y => y.live && y.resident).length < 256 →
      Does s (.queueResidencyChange q true) { s with dev := putQueue s.dev { x with resident := true } }) ∧
    (s.dev.boot = .running → findQueue s.dev q = some x →
      Does s (.queueResidencyChange q false) { s with dev := putQueue s.dev { x with resident := false } })

/-! ## The host, the boot ROM, reset and the surroundings (R384, R412, R413, R426-R435) -/

/-- R215, R221, R236, R427-R433: the host's requests to a running device, each with its replies: OK 0, DENIED 1, INVALID 2,
NOTFOUND 3, BUSY 4. Requests come over an Ultra Ethernet port that is up, in minimal mode port 0; RESYNC, ATTEST and RESET over the
management port too, outside minimal mode. A MAP that may be made stores W as the tensor's writers give it. In minimal mode those the table does not admit, a warm RESET among them, answer MINIMAL 5 and change nothing;
firmware, ATTEST and RESYNC are served as ever, and while a RESET is in progress every request answers BUSY.
(Log 8: a request with no port up is not received. Logs 28 and 29: statuses the table does not give, and what a firmware image is
answered with. Log 62: BUSY until the agenda ends the RESET, the run states of RESYNC. Logs 12, 34, 35 and 40: signatures, the service,
the lines of RESYNC, MAP. Log 10: which answer makes a start succeed, and the code 0 of such a start. Logs 53, 64 and 72: what an image is
and which images are accepted. Log 52: a MAP writes no initial contents.) -/
def Obligations.HostRequests : Prop :=
  ∀ (s : State) (req : Word) (img : Image) (fw : Firmware) (h : BitVec 32) (p : Packet) (q : Queue) (n m c tile : Nat) (e : TileEntry)
    (r : Run) (t : Tensor) (ptr : Word) (bs : List Byte) (k0 k1 : BitVec 256) (l : List Nat) (d : Dev) (hr : HostRange)
    (number : Fin 64) (w : Bool),
    let answers := fun (u : State) (status : Nat) (data : ReplyData) =>
      { u with dev := { u.dev with replies := u.dev.replies ++ [{ req := req, status := status, data := data }] } }
    let dev := fun (x : Dev) => { s with dev := x }
    let net := heard s.dev false = true ∧ s.dev.resetting = none
    let up := s.dev.boot = .running ∧ net
    let push := localPush s.dev h.toNat p
    let fresh := fun (g : BitVec 16) => { index := n, gen := g, live := true, priority := m, capacity := c, ring := [], parsed := 0, run := none, marker := 0, rejects := 0, rejectCode := 0, resident := false, judged := false : Queue }
    let ok := n < 65536 ∧ m < 8 ∧ capacityOk c = true
    let range := fun (len : Nat) => findRun s.dev n = some r ∧ hostRange r ptr.toNat len = hr ∧ hr ≠ .invalid ∧ hostMay r hr = true ∧
      hostAddrs (if r.instants.isEmpty then settleRun s n else s).dev n len hr = (d, some l)
    let based := { (if r.instants.isEmpty then settleRun s n else s) with dev := d }
    let keys := s.dev.keys.filter fun x => x.1 ≠ n
    let minimal := [Instr.imageLoad req img, .queuePush req h p, .queueCreate req n m c, .queueDestroy req h, .map req n m tile e,
      .memRead req n ptr c, .memWrite req n ptr bs, .keySet req n k0 k1]
    let managed := [Instr.attest req k0, .resync req, .warmReset req number, .coldReset req number]
    let firmware := Instr.firmwareImageLoad req fw
    let serving := s.dev.boot = .running ∨ s.dev.boot = .minimal
    let called := serving ∧ heard s.dev true = true ∧ s.dev.resetting = none
    (heard s.dev false = true ↔ if s.dev.boot = .minimal then s.dev.ethernet[0] = true else ∃ j : Fin 8, s.dev.ethernet[j.val] = true) ∧
    (heard s.dev true = true ↔ heard s.dev false = true ∨ (s.dev.boot ≠ .minimal ∧ s.dev.management = true)) ∧
    (s.dev.boot = .minimal → net → ∀ i ∈ minimal, Does s i (answers s 5 .none)) ∧
    (s.dev.boot = .minimal → heard s.dev true = true → s.dev.resetting = none → Does s (.warmReset req number) (answers s 5 .none)) ∧
    (s.dev.resetting ≠ none → (heard s.dev false = true → ∀ i ∈ firmware :: minimal, Does s i (answers s 4 .none)) ∧
      (heard s.dev true = true → ∀ i ∈ managed, Does s i (answers s 4 .none))) ∧
    (heard s.dev false = false → ∀ i ∈ firmware :: minimal, Does s i s) ∧
    (heard s.dev true = false → ∀ i ∈ managed, Does s i s) ∧
    (up → imageOk img = false → Does s (.imageLoad req img) (answers s 2 .none)) ∧
    (up → imageOk img = true → Does s (.imageLoad req img) (answers (dev { s.dev with
      images := s.dev.images ++ [(s.dev.nextImage, img)], nextImage := s.dev.nextImage + 1 }) 0 (.handle s.dev.nextImage))) ∧
    (serving → net → firmwareFault fw = some c → Does s (.firmwareImageLoad req fw) (answers s 2 (.code c))) ∧
    (serving → net → firmwareFault fw = none → Does s (.firmwareImageLoad req fw)
      (answers (dev { s.dev with activeBank := some fw, spareBank := s.dev.activeBank, failedStarts := 0 }) 0 .none)) ∧
    (up → Does s (.queuePush req h p) (answers (dev push.2) 0 (.code push.1))) ∧
    (up → ¬ ok → Does s (.queueCreate req n m c) (answers s 2 .none)) ∧
    (up → ok → findQueue s.dev n = some q → Does s (.queueCreate req n m c) (answers s 4 .none)) ∧
    (up → ok → findQueue s.dev n = none → let g := generationOf s.dev n
      Does s (.queueCreate req n m c) (answers (dev { s.dev with
        queues := (s.dev.queues.filter fun x => x.index != n) ++ [fresh g] }) 0 (.handle (g.toNat * 65536 + n)))) ∧
    (up → currentQueue s.dev h.toNat = some q → q.run = some n → let u := tearDown s n
      Does s (.queueDestroy req h) (answers { u with
        dev := putQueue u.dev { q with live := false, gen := q.gen + 1, ring := [], run := none, judged := false } } 0 .none)) ∧
    (up → currentQueue s.dev h.toNat = none → Does s (.queueDestroy req h) (answers s 3 .none)) ∧
    (up → currentQueue s.dev h.toNat = some q → q.run = none → Does s (.queueDestroy req h)
      (answers (dev (putQueue s.dev { q with live := false, gen := q.gen + 1, ring := [], judged := false })) 0 .none)) ∧
    (up → findRun s.dev n = none → Does s (.map req n m tile e) (answers s 3 .none)) ∧
    (up → findRun s.dev n = some r → imgTensor r.image m = some t → (w = true ↔ (∃ y, t.writers = some y ∧ y ≠ []) ∨ (t.readers = none ∧ t.writers = none)) →
      (t.ntiles ≤ tile → Does s (.map req n m tile e) (answers s 2 .none)) ∧
      (tile < t.ntiles → mapOk r t e = false → Does s (.map req n m tile e) (answers s 1 (.code 0x0A))) ∧
      (tile < t.ntiles → mapOk r t e = true →
        Does s (.map req n m tile e) (answers (dev (putRun s.dev (setTile r m tile { e with w := w }))) 0 .none))) ∧
    (up → findRun s.dev n = none → Does s (.memRead req n ptr c) (answers s 3 .none) ∧ Does s (.memWrite req n ptr bs) (answers s 3 .none)) ∧
    (up → findRun s.dev n = some r → (hostRange r ptr.toNat c = .invalid → Does s (.memRead req n ptr c) (answers s 2 .none)) ∧
      (hostRange r ptr.toNat bs.length = .invalid → Does s (.memWrite req n ptr bs) (answers s 2 .none))) ∧
    (up → findRun s.dev n = some r → r.instants ≠ [] → t.order ≠ .live →
      (hostRange r ptr.toNat c = .tensor t m → Does s (.memRead req n ptr c) (answers s 1 .none)) ∧
      (hostRange r ptr.toNat bs.length = .tensor t m → Does s (.memWrite req n ptr bs) (answers s 1 .none))) ∧
    (let x := ptr.toNat
      let window := x / 2 ^ 62
      let tensor := imgTensor r.image (x / 2 ^ 44 % 4096)
      let off := if window = 1 then x % 2 ^ 26 else x % 2 ^ 44
      let vault := x / 2 ^ 26 % 32
      (2 ^ 20 < c ∨ window = 0 ∨ window = 3 ∨ (window = 1 ∧ x / 2 ^ 31 % 2 ^ 31 ≠ 0) ∨ (window = 2 ∧ x / 2 ^ 56 % 64 ≠ 0) ∨
        (window = 2 ∧ tensor = none) ∨ (window = 2 ∧ tensor = some t ∧ t.size < off + c) ∨
        (window = 1 ∧ (windowFrames r vault).length * 65536 < off + c) → hostRange r x c = .invalid) ∧
      (window = 2 → x / 2 ^ 56 % 64 = 0 → tensor = some t → off + c ≤ t.size → c ≤ 2 ^ 20 → hostRange r x c = .tensor t off) ∧
      (window = 1 → x / 2 ^ 31 % 2 ^ 31 = 0 → off + c ≤ (windowFrames r vault).length * 65536 → c ≤ 2 ^ 20 →
        hostRange r x c = .loft vault off)) ∧
    (up → range c → Does s (.memRead req n ptr c) (answers based 0 (.bytes (l.map (memRead d.mem))))) ∧
    (up → range bs.length → Does s (.memWrite req n ptr bs) (answers { based with dev := { d with
      mem := (l.zip bs).foldl (fun m x => memWrite m x.1 x.2) d.mem } } 0 .none)) ∧
    (up → 64 ≤ n → Does s (.keySet req n k0 k1) (answers s 2 .none)) ∧
    (up → n < 64 → (∃ x ∈ s.dev.runs ++ s.dev.torn.map (·.run), x.keySlot = n) → Does s (.keySet req n k0 k1) (answers s 1 .none)) ∧
    (up → n < 64 → (∀ x ∈ s.dev.runs ++ s.dev.torn.map (·.run), x.keySlot ≠ n) → Does s (.keySet req n k0 k1) (answers (dev { s.dev with
      keys := if k0 = 0 ∧ k1 = 0 then keys else keys ++ [(n, { key0 := k0, key1 := k1 })] }) 0 .none)) ∧
    (called → Does s (.attest req k0) (answers s 0 (.report (attestBody s.dev k0) (Config.mldsaSign (Config.sha3 (attestBody s.dev k0)))))) ∧
    (called → Does s (.resync req) (answers s 0 (.resync (resyncLines s)))) ∧
    (∀ y : String × List Nat, y.1 = "frozen" → (y ∈ resyncLines s ↔ ∃ b ∈ acts s, (∃ v, runOfKey b.key = some v) ∧ y = frozenLine s b ∧
      (b.frozen.isSome = true ∨ b.status = .parked ∨ b.saved.isSome = true ∨
        ((b.preempt = true ∨ awaitsHandler b = true) ∧ canHandle s b = false)))) ∧
    (s.dev.boot = .starting c → s.dev.resetting = none → let started := dev { s.dev with
        boot := .running, failedStarts := 0, reasons := (s.dev.reasons ++ [0]).drop (s.dev.reasons.length - 2) }
      (heard s.dev false = true → ∀ i ∈ firmware :: minimal, exec i s = exec i started) ∧
      (heard s.dev true = true → ∀ i ∈ .coldReset req number :: managed, exec i s = exec i started))

/-- R336, R384, R412, R413, R431, R434, R435: the boot ROM starts the stewards, halted, on firmware that verifies, or counts a failed
start with its reason, the third in a row leading to minimal mode, in which the stewards run alone; a start that has not answered in
10 s fails. A warm RESET drops runs, queues, images and signal counters and takes the number; a cold one also drops the keys and
boots, in minimal mode too; either is in progress until it is answered. Until the service has reclaimed it, a run torn down is
reported as one and keeps its number, frames and key slot, which it does not while a write of the run is on its way; a warm RESET
reclaims. Thermal limits, link resends, a corrected error and an uncorrectable one; the period of the budgets.
(Log 8: a request with no port up. Logs 10, 12 and 13: flash, signatures, self-test. Log 29: the order of the firmware checks. Log
30: the count of resends, and when it ends. Log 31: uncorrectable errors. Log 32: the bounds of a
budget period. Log 34: the stewards start halted. Log 62: a RESET's effects come when it is served, it is in
progress until the agenda ends it, and the agenda says when a run is reclaimed.) -/
def Obligations.BootResetAndSurroundings : Prop :=
  ∀ (s : State) (req : Word) (number : Fin 64) (fw : Firmware) (t c addr : Nat) (core : Fin 32) (port : Fin 12) (run : Nat) (x : TornRun)
    (y0 : Run) (a0 : Act),
    let n := s.dev.starts
    let begun := { s with dev := { s.dev with starts := n + 1 } }
    let fails := fun (u : State) (i : Instr) (reason : Nat) => ∃ w, exec i s = .next w ∧ w.dev.failedStarts = u.dev.failedStarts + 1 ∧
      w.dev.running = none ∧ w.dev.reasons = lastThree (u.dev.reasons ++ [reason]) ∧
      (w.dev.boot = if 3 ≤ u.dev.failedStarts + 1 then .minimal else .off) ∧
      ∀ a ∈ acts w, ∀ d k, a.key = .steward d k → a.status = if 3 ≤ u.dev.failedStarts + 1 then .halted else .off
    let up := s.dev.boot = .running ∧ heard s.dev true = true ∧ s.dev.resetting = none
    let y := getCore s.dev core.val
    let p := s.dev.ports[port.val]
    let ports := fun (x : Port) => { s with dev := { s.dev with ports := s.dev.ports.set port.val x } }
    (s.dev.boot = .off → s.dev.activeBank = none → fails begun .powerOnBoot 1) ∧
    (s.dev.boot = .off → s.dev.activeBank = some fw → firmwareFault fw = some c → fails begun .powerOnBoot c) ∧
    (s.dev.boot = .off → s.dev.activeBank = some fw → firmwareFault fw = none → Config.selfTestPasses n = true →
      Config.trainingPasses n = true → ∃ w, exec .powerOnBoot s = .next w ∧ w.dev.running = some fw ∧
        w.dev.boot = .starting s.dev.cycle ∧ w.dev.mem = s.dev.mem ∧ w.dev.starts = n + 1 ∧
        ∀ a ∈ acts w, ∀ d k, a.key = .steward d k → a = { Act.steward d k with status := .halted }) ∧
    (s.dev.boot = .starting t → t + 30000000000 ≤ s.dev.cycle → fails s .serviceStartTimeout 6) ∧
    (s.dev.boot = .starting t → s.dev.cycle < t + 30000000000 → Does s .serviceStartTimeout s) ∧
    (up → ∃ w, exec (.warmReset req number) s = .next w ∧ w.dev.number = number.val ∧ w.dev.images = [] ∧ w.dev.colls = [] ∧
      (∀ j : Fin 256, w.dev.counters[j.val] = 0) ∧ (∀ q ∈ w.dev.queues, q.live = false) ∧ w.dev.keys = s.dev.keys ∧ w.dev.torn = [] ∧
      w.dev.resetting = some req ∧ w.dev.replies = s.dev.replies) ∧
    (up ∨ (s.dev.boot = .minimal ∧ heard s.dev true = true ∧ s.dev.resetting = none) → ∃ w, exec (.coldReset req number) s = .next w ∧ w.dev.number = number.val ∧ w.dev.images = [] ∧ w.dev.colls = [] ∧
      w.dev.keys = [] ∧ (∀ q ∈ w.dev.queues, q.live = false) ∧ w.dev.starts = n + 1 ∧ w.dev.resetting = some req) ∧
    (s.dev.resetting = some req → resetDone s = { s with dev := { s.dev with
      resetting := none, replies := s.dev.replies ++ [{ req := req, status := 0, data := .none }] } }) ∧
    (t < 110 → Does s (.thermalExclusion core t) s) ∧
    (110 ≤ t → y.excluded = false → ∃ w, exec (.thermalExclusion core t) s = .next w ∧
      getCore w.dev core.val = { y with temp := t, excluded := true }) ∧
    (y.excluded = true → t ≤ 100 → Does s (.thermalReadmission core t)
      { s with dev := putCore s.dev core.val { y with temp := t, excluded := false } }) ∧
    (100 < t → Does s (.thermalReadmission core t) s) ∧
    (p.up = true → p.resends < 16 → Does s (.woushFlitResend port) (ports { p with resends := p.resends + 1 })) ∧
    (p.up = true → 16 ≤ p.resends → Does s (.woushPortDown port) (ports { p with up := false })) ∧
    (p.up = true → p.resends < 16 → perform (.flitIntact port) s = .next (ports { p with resends := 0 })) ∧
    (p.up = true → 16 ≤ p.resends → perform (.flitIntact port) s = .next s) ∧
    ((∃ q ∈ s.dev.liveq, runOfKey q.who = some run) → perform (.reclaimed run) s = .next s) ∧
    ((∀ q ∈ s.dev.liveq, runOfKey q.who ≠ some run) → perform (.reclaimed run) s = .next { s with dev := { s.dev with
      torn := s.dev.torn.filter fun y => y.run.num != run
      usedFrames := s.dev.usedFrames ++ (s.dev.torn.filter fun y => y.run.num = run).flatMap (·.run.hbmFrames) } }) ∧
    (x ∈ s.dev.torn → ("run", [x.run.num, x.run.imageHandle, x.run.queue, x.run.dieMask.toNat, x.run.keySlot, x.ridge.1, x.ridge.2,
      x.run.allowance, x.run.reach, 2]) ∈ resyncLines s) ∧
    Does s .seamFlitResend { s with dev := { s.dev with seamResends := s.dev.seamResends + 1 } } ∧
    (isDeviceByte addr = true → Does s (.softErrorCorrection addr) { s with dev := { s.dev with corrected := s.dev.corrected + 1 } }) ∧
    (isDeviceByte addr = true → (∀ r ∈ s.dev.runs, ownsByte s r addr = false) →
      Does s (.scrubUncorrectable addr) { s with dev := { s.dev with reported := s.dev.reported ++ [addr] } }) ∧
    (isDeviceByte addr = true → s.dev.runs.filter (fun r => ownsByte s r addr) = [y0] → let w := tearDown s y0.num
      Does s (.scrubUncorrectable addr) { w with dev := { w.dev with reported := w.dev.reported ++ [addr] } } ∧
      (∀ r, r ∈ w.dev.runs ↔ r ∈ s.dev.runs ∧ r.num ≠ y0.num) ∧ ∃ r ∈ w.dev.torn, r.run.num = y0.num) ∧
    (addr < 2 ^ 40 → y0.hbmFrames.contains (addr / 65536) = true → ownsByte s y0 addr = true) ∧
    (2 ^ 40 ≤ addr → addr < 2 ^ 41 → y0.loftFrames.contains ((addr - 2 ^ 40) / 65536) = true → ownsByte s y0 addr = true) ∧
    (a0 ∈ runActs s y0.num → (∃ v ∈ a0.place, v.core < 32 ∧ ∃ b ∈ v.banks, bankAddr v.core b 0 ≤ addr ∧ addr < bankAddr v.core b 131072) →
      ownsByte s y0 addr = true) ∧
    (isDeviceByte addr = false → exec (.softErrorCorrection addr) s = .fault (.noSuchAddress addr) ∧
      exec (.scrubUncorrectable addr) s = .fault (.noSuchAddress addr)) ∧
    (s.dev.period + 4096 ≤ s.dev.cycle → Does s .budgetPeriod
      { s with dev := { s.dev with period := s.dev.cycle / 4096 * 4096 } })

/-! ## Encodings (R49-R66) -/

/-- R50, R52-R56, R62-R66: words written out bit by bit from the forms and the opcode map decode to the instruction they
stand for; words that break a field rule are undefined. -/
def Obligations.KnownWords : Prop :=
  let is_ := fun (w : BitVec 32) (stop : Bool) (i : Instr) => decodeWord w = some { stop := stop, instr := i }
  is_ 0b0_0000_000000_00110_00001_00010_000000#32 false (.add (.clk 0) 6 1 2) ∧
  is_ 0b1_1110_000001_00111_01001_01010_000011#32 true (.div .first 7 9 10) ∧
  is_ 0b1_0000_000010_00011_00011_11111111111#32 true (.addi (.clk 0) 3 3 0x7FF) ∧
  is_ 0b0_0000_001011_00101_00000_11001111000#32 false (.li (.clk 0) 5 0x678) ∧
  is_ 0b1_0000_001101_00000_11001_00000000010#32 true (.csrw (.clk 0) 25 0x002) ∧
  is_ 0b1_0011_010000_111111111111111111101#32 true (.br (.clk 3) 0x1FFFFD) ∧
  is_ 0b1_0000_010100_0000100001_00000000001#32 true (.loopi (.clk 0) 33 1) ∧
  is_ 0b1_0000_010110_00000_00000_00000_000010#32 true (.endAct (.clk 0)) ∧
  is_ 0b1_0000_010111_00000_01100_10000_000011#32 true (.waitGe (.clk 0) 12 16) ∧
  is_ 0b1_0000_011001_00001_00011_00000_000010#32 true (.clksplit (.clk 0) 1 3) ∧
  is_ 0b0_0001_011010_10100_01010_00000_000000#32 false (.whenScalar (.clk 1) 20 10) ∧
  is_ 0b1_0000_011011_01001_00111_01000_000000#32 true (.mergeScalar (.clk 0) 9 7 8) ∧
  is_ 0b1_0000_100010_00000_00000_00100_110_000#32 true (.vdiv (.clk 0) 0 0 4 .f32 .dyn) ∧
  is_ 0b1_0000_100110_01001_01000_1010_1110_000#32 true (.vcvt (.clk 0) 9 8 .f32 .x128 .dyn) ∧
  is_ 0b0_1110_101001_00011_00010_00001_110_000#32 false (.vunaryNeg .first 3 2 .f32) ∧
  is_ 0b1_0000_101011_01111_01001_00000_100010#32 true (.vext (.clk 0) 15 9 0 .w32) ∧
  is_ 0b1_0000_101101_01000_00000_00000_000_000#32 true (.vxaccP32 (.clk 0) 8 0 0) ∧
  is_ 0b0_0000_101110_00000_00000_10100_000011#32 false (.resolven (.clk 0) 0 20) ∧
  is_ 0b1_0000_101111_00101_11101_011_00000010#32 true (.ld (.clk 0) 5 29 .i64 2) ∧
  is_ 0b1_1111_110000_01111_01110_011_00000000#32 true (.st .last 15 14 .i64 0) ∧
  is_ 0b1_0001_110011_00110_10101_00101_000001#32 true (.fbyVector (.clk 1) 6 21 5) ∧
  is_ 0b1_0000_110100_00100_01010_00101_100010#32 true (.vgath (.clk 0) 4 10 5 .w32) ∧
  is_ 0b0_0000_110101_00010_01011_00000_001011#32 false (.ldt (.clk 0) 2 11 .c1 .double) ∧
  is_ 0b1_0000_110110_00000_01110_01111_100000#32 true (.atomAdd (.clk 0) 14 15 .w64) ∧
  is_ 0b1_0000_110111_00101_00110_00111_100010#32 true (.cas (.clk 0) 5 6 7 .w64) ∧
  is_ 0b0_0000_111000_01111_01100_00000_010001#32 false (.strel (.clk 0) 15 12 .device) ∧
  is_ 0b1_0000_111001_01100_01010_01011_000010#32 true (.coll (.clk 0) 12 10 11) ∧
  is_ 0b1_0000_111011_00000_00001_00111_000001#32 true (.mmaW1 (.clk 0) 0 1 7) ∧
  is_ 0b0_0000_111100_00000_00001_01001_000011#32 false (.awriteAdd (.clk 0) 0 1 9) ∧
  is_ 0b0_0000_111110_00001_00000_01000_101000#32 false (.aread (.clk 0) 1 0 8 .raw) ∧
  is_ 0b0_0000_111111_000000000000000000101#32 false (.literalExtension 5) ∧
  decodeWord 0b1_0000_110110_00000_01110_01111_110000#32 = none ∧
  decodeWord 0b0_0000_000000_00000_00000_00000_010111#32 = none ∧
  decodeWord 0b0_0001_111111_000000000000000000000#32 = none ∧
  decodeWord 0b0_0000_001100_00000_00001_00000000000#32 = none ∧
  decodeWord 0b0_0000_111011_10000_00000_00000_000000#32 = none

/-- R49-R66: every defined instruction with an encoding, with every operand at every value its field admits, decodes
back from its word, stop bit included. -/
def Obligations.EveryInstructionDecodesBack : Prop :=
  ∀ (i : Instr) (stop : Bool), i.wf = true → i.encoded = true → decodeWord (encodeWord stop i) = some { stop := stop, instr := i }

/-- R49-R66: every slot word that decodes is the word of its instruction, which is defined and has an encoding: no bit of a
word is ignored, and no two words stand for one instruction. -/
def Obligations.EveryWordEncodesBack : Prop :=
  ∀ (w : BitVec 32) (x : Slot), decodeWord w = some x → encodeWord x.stop x.instr = w ∧ x.instr.wf = true ∧ x.instr.encoded = true

/-! ## The machine's step (R21-R26, R370) -/

/-- R21, R22, R370: a step that issues a core's next bundle. The running activation comes into focus, its due results land, and
where no request is pending, the bundle is not held back (R255, R263) and it is at the pc one slot that decodes to `i`, the step
is `exec i` at the state before the bundle, followed by the commit (`finish`). (Log 1: the agenda says that this core issues
next.) -/
def Obligations.StepRunsDecodedInstruction : Prop :=
  ∀ (s : State) (core : Nat) (a : Act) (rest : List Choice) (w : BitVec 32) (x : Slot) (t : Tag) (p : Bool),
    s.agenda = .issue core :: rest → runningAct { s with agenda := rest } core = some a →
    let f := focusOn { s with agenda := rest } a.key
    let l := landAll f.act.inflight.length { f with act := { f.act with status := .ready } }
    let r := endDuePass l
    let z := { r.act with hold := none }
    let b := { r with dev0 := r.dev, act0 := z, act := z, iss :=
      { status := .running, slot := 0, words := [w], ext := [], flags := 0, freed := [], ctl := .next } }
    frozenByTimedLoad l.act = false → r.act.preempt = false → r.act.deferred = [] → r.dev.badCode = [] →
    r.act.badRegs = [] → heldBack r r.act = false →
    r.act.inflight.length < 48 → fetchBundle (codeOf b b.act0) b.act0.pc = .ok [w] → decodeWord w = some x →
    (∀ y, x.instr ≠ .literalExtension y) → undefHere b.act0 x.instr = false →
    structural b x.instr = .go t p → awaited b.act0 x.instr = false →
    (∀ u, exec x.instr b = .next u → step s = .next (finish (if u.iss.status = .running then
      { u with iss := { u.iss with ext := [] } } else u))) ∧
    (∀ g, exec x.instr b = .fault g → step s = .fault g) ∧ (∀ g, exec x.instr b = .refused g → step s = .refused g)

/-- R22, R23, R29, R38, R103-R109, R112, R115, R116, R193, R372, R404, R405: the commit of a bundle whose slots all ran. FPC takes the flags the
slots set; the pc goes to the following bundle, or where the control slot sent it, and 1 or 3 advance cycles pass; the
device's memory is what the slots left. LNEXT ends the pass as the end of a body's last bundle does, the last one popping the level and
checking the next. A REQ that the bundle has set asks the activation in its slot to pre-empt, or reads 0 again where there is none. A
committed END leaves the activation ended, its feeds unbound, its bundle's CSR writes undone and its pending traps still to be raised,
a handler activation's at once; a handler activation with nothing on its way any more is gone, and what follows a change of its run's activations is done. A bundle that stalls where its core switches gives the core up; it,
and any other stalled or trapped bundle, spends a core cycle that is no advance cycle. With the cycle the queue agent decides what has
reached it (log 48).
(Log 16: LNEXT passes the check to the next level, and an end of a pass by it sets the boundary at which a request is granted. Log
25: an ended handler activation stays while something of it is on its way. Log 57: when END's traps are raised. Log 75: a CORE that
names no compute core. Log 34: a slot of the stewards that ends. Log 39: one counter of core cycles. Log 55: a
body that reaches past the code section.) -/
def Obligations.BundleCommit : Prop :=
  ∀ (s v : State) (x n : Nat) (l : Level) (m : Level) (ls : List Level) (p : Place), let u := finish s
    let after := s.act0.pc + 4 * s.iss.words.length
    let ends := endsBody (codeOf s s.act0) s.act0 s.act0.pc
    let a := { s.act with
      fpc := s.act.fpc ||| BitVec.ofNat 64 (s.iss.flags % 32 * 8), boundary := false
      sinceRequest := if s.act.preempt then s.act.sinceRequest + 1 else s.act.sinceRequest }
    let onTheWay := (∃ q ∈ (tick 1 s).dev.liveq, q.who = s.act.key) ∨ ∃ q ∈ s.dev.cellq, q.who = s.act.key
    let csr := s.act.preemptCsr.toNat
    let sends := csr / 65536 % 2 = 1 ∧ s.act0.preemptCsr.toNat / 65536 % 2 = 0
    let inSlot := (acts s).filter fun c => c.place.any fun q => q.core = csr / 256 % 256 && q.slot = csr % 8
    let takes := fun (b : Act) => (∃ n, runOfKey b.key = some n) ∧ b.status ≠ .ended ∧ b.status ≠ .retired
    let traps := s.act.deferred ++ s.act.deferredHeld ++
      (s.act.inflight ++ s.act.snapshot).filterMap fun f => if f.timed then f.memx else none
    let cycles := fun (n : Nat) (b : Act) => ¬ sends → u.act = { b with adv := s.act.adv + n } ∧ u.dev.cycle = s.dev.cycle + n ∧
      u.dev.mem = s.dev.mem ∧ u.dev.runs = s.dev.runs ∧ u.iss = Iss.idle
    (s.iss.status = .running →
      (s.iss.ctl = .next → cycles 1 { a with pc := after, passEnd := ends }) ∧
      (s.iss.ctl = .jump x → cycles 3 { a with pc := x }) ∧
      (s.iss.ctl = .pushLevel l → cycles 1 { a with loops := l :: s.act.loops, pc := l.start }) ∧
      (s.iss.ctl = .skipBody x → cycles 3 { a with pc := x }) ∧
      (s.iss.ctl = .popLevel x → s.act.loops = m :: ls → cycles 3 { a with loops := ls, pc := x }) ∧
      (s.iss.ctl = .endPass → s.act.loops = m :: ls → m.index + 1 ≠ m.count →
        cycles 3 { a with loops := { m with index := m.index + 1 } :: ls, pc := m.start, passEnd := false, boundary := true }) ∧
      (s.iss.ctl = .endPass → codeOf s s.act = codeOf s s.act0 → exec .loopPassEnd { s with act := { a with passEnd := true } } = .next v →
        s.act.loops ≠ [] → cycles 3 v.act) ∧
      (s.iss.ctl = .endPass → s.act.loops = [m] → m.index + 1 = m.count →
        cycles 3 { a with loops := [], pc := bodyAfter (codeOf s s.act0) m, passEnd := false, boundary := true }) ∧
      (s.iss.ctl = .yield → cycles 1 { a with pc := after, passEnd := ends, boundary := true }) ∧
      (s.iss.ctl = .endAct → isHandler s.act = false ∨ onTheWay → ∃ b, findAct u s.act.key = some b ∧ b.status = .ended ∧
        b.feeds = Vector.replicate 8 none ∧ u.dev.cycle = s.dev.cycle + 1 ∧ u.dev.mem = s.dev.mem ∧ u.dev.pwake = s.dev0.pwake ∧
        (isHandler s.act = false → b.deferred = traps ∧
          ∀ o ∈ s.dev.others, o.key ≠ s.act.key → ∃ c ∈ acts u, c.key = o.key ∧ c.preempt = o.preempt) ∧
        (isHandler s.act = true → runOfKey s.act.key = some n → ∀ t ∈ traps, ∃ o ∈ u.dev.orphanTraps,
          o.record = t ∧ o.run = n ∧ o.stamp = s.act.stamp ∧ o.met = some s.act.trap)) ∧
      (s.iss.ctl = .next → sends → (∀ b ∈ inSlot, ¬ takes b) → u.act = { a with
        pc := after, passEnd := ends, adv := s.act.adv + 1, preemptCsr := BitVec.ofNat 64 (csr % 65536) } ∧
        u.dev.cycle = s.dev.cycle + 1 ∧ u.dev.mem = s.dev.mem) ∧
      (∀ b, s.iss.ctl = .next → sends → inSlot = [b] → takes b → b.key ≠ s.act.key → ∃ c, findAct u b.key = some c ∧ c.preempt = true ∧
        c.sinceRequest = (if b.preempt then b.sinceRequest else 0) ∧ u.act.preemptCsr = s.act.preemptCsr ∧ u.act.pc = after) ∧
      (s.iss.ctl = .endAct → isHandler s.act = true → ¬ onTheWay → s.dev.others ≠ [] → (∀ b ∈ s.dev.others, b.key ≠ s.act.key) →
        runOfKey s.act.key = some n → ∃ z, (∀ b ∈ acts z, b.key ≠ s.act.key) ∧ (∀ b ∈ s.dev.others, ∃ c ∈ acts z, c.key = b.key) ∧
          z.dev.mem = s.dev.mem ∧ z.dev.cycle = s.dev.cycle + 1 ∧ u = { afterChange z n with iss := Iss.idle }) ∧
      (s.iss.ctl = .halt → u.act.status = .halted ∧ u.dev.cycle = s.dev.cycle + 1 ∧ u.dev.mem = s.dev.mem)) ∧
    (s.iss.status = .stalled ∨ s.iss.status = .trapped → u = { tick 1 s with iss := Iss.idle } ∧
      (s.dev.pushes = [] → u = { s with dev := { s.dev with cycle := s.dev.cycle + 1 }, iss := Iss.idle })) ∧
    (s.iss.status = .switched → u.act = { s.act with stalledAtPoint := true } ∧ u.dev.cycle = s.dev.cycle + 1 ∧
      u.dev.mem = s.dev.mem ∧ u.dev.runs = s.dev.runs ∧ u.dev.others = s.dev.others ∧ u.iss = Iss.idle ∧
      (s.act.place = some p → p.core < 32 → (getCore u.dev p.core).current ≠ some p.slot))

/-! ## Checks and traps (R15-R17, R21, R26, R30, R56-R61, R370-R376) -/

/-- R15-R17, R26, R30, R370: the checks of one slot and what follows from them. An undefined clock is CLKU, a source on
neither the slot's clock nor tag 30 is CLKF with reason 1, a missing privilege is PRIV; under a qualifier the clock is the first
tag from 0 to 13 among the sources, k0 without one, and a source that does not fit it, tag 31 among them, is CLKF. WHEN asks for the tag
of K's parent, CURR for K's or a descendant's, MERGE for the two halves of a pair of K's, or CLKF with reason 2; CLKQ of an undefined
clock is CLKU; a definition that would make a clock its own ancestor is CLKF with reason 3. A slot on an absent clock changes nothing, one whose register awaits an
interlocked result stalls its bundle. No instruction with an encoding ends in a fault or a refusal.
(Log 36: when a stall is met. Log 45: e(A+1) of an MMAS. Log 63: a CLKQ whose K and kA are both undefined reports K; a definition with
a source that does not fit reports reason 1.) -/
def Obligations.StructuralChecks : Prop :=
  ∀ (s : State) (i : Instr) (c x j : Nat) (t : Tag) (n m : Fin 14) (l1 l2 : List Src) (q r : Src) (d a b : Fin 32) (k1 k2 : List Nat)
    (k : KSel), i.encoded = true →
    (∀ y, i ≠ .literalExtension y) → undefHere s.act0 i = false →
    let word := (s.iss.words.getD s.iss.slot 0).toNat
    let moves := match i with
      | .whenScalar .. => true | .whenVector .. => true | .currScalar .. => true | .currVector .. => true
      | .mergeScalar .. => true | .mergeVector .. => true | .clkq .. => true | .clkon .. => true | .clkoff .. => true
      | .clksplit .. => true | _ => false
    let fits := fun (n : Nat) (r : Src) => (srcTag s r).toNat = n ∨ srcTag s r = 30
    let pres := s.act0.clocks[n.val].pres
    let clkf := fun (reason tag : Nat) => Checked.trap 0x03 (reason * 2 ^ 37 + tag * 2 ^ 32 + word)
    let passes := Checked.go (BitVec.ofNat 5 n.val) pres
    let tag := fun (r : Src) => (srcTag s r).toNat
    let on := s.act0.clocks[n.val].defd = true
    let first := (∃ y z w, readsOf i = y ++ w :: z ∧ (∀ r ∈ y, 14 ≤ tag r) ∧ tag w = n.val) ∨ ((∀ r ∈ readsOf i, 14 ≤ tag r) ∧ n = 0)
    let isWhen := (i = .whenScalar (.clk n) d a ∧ q = .s a) ∨ (i = .whenVector (.clk n) d a ∧ q = .v a)
    let isCurr := (i = .currScalar (.clk n) d a ∧ q = .s a) ∨ (i = .currVector (.clk n) d a ∧ q = .v a)
    let isMerge := (i = .mergeScalar (.clk n) d a b ∧ q = .s a ∧ r = .s b) ∨ (i = .mergeVector (.clk n) d a b ∧ q = .v a ∧ r = .v b)
    let when_ := tag q = (s.act0.clocks[n.val].parent).val ∨ tag q = 30
    let curr_ := tag q = n.val ∨ tag q = 30 ∨ Descends s.act0 n.val (tag q)
    let one := 1 ≤ tag q ∧ tag q ≤ 12
    let pair := (one ∧ j = tag q) ∨ (¬ one ∧ 2 ≤ tag r ∧ tag r ≤ 13 ∧ j + 1 = tag r)
    let halves := ∃ h : j + 1 < 14, let y := s.act0.clocks[j]; let z := s.act0.clocks[j + 1]
      y.defd = true ∧ z.defd = true ∧ y.role = 1 ∧ z.role = 2 ∧ y.parent = n ∧ z.parent = n
    let defines := fun (l : List Nat) => (l = [m.val] ∧ (i = .clkon (.clk n) m a ∨ i = .clkoff (.clk n) m a)) ∨
      (l = [m.val, m.val + 1] ∧ i = .clksplit (.clk n) m a)
    (structural s i = .trap c x → exec i s = .next (slotTrap s c 0 x)) ∧
    (structural s i = .go t false → exec i s = .next s) ∧
    (structural s i = .go t true → awaited s.act0 i = true → exec i s = .next (stall s)) ∧
    (∃ u, exec i s = .next u) ∧
    (kOf i = .clk n → s.act0.clocks[n.val].defd = false → structural s i = .trap 0x04 (n.val * 2 ^ 32 + word)) ∧
    (moves = false → kOf i = .clk n → s.act0.clocks[n.val].defd = true →
      (readsOf i = l1 ++ q :: l2 → (∀ r ∈ l1, fits n.val r) → ¬ fits n.val q →
        structural s i = clkf 1 (tag q)) ∧
      ((∀ r ∈ readsOf i, fits n.val r) → privileged s.act0 i = true → structural s i = .go (BitVec.ofNat 5 n.val) pres) ∧
      ((∀ r ∈ readsOf i, fits n.val r) → privileged s.act0 i = false → structural s i = .trap 0x15 word)) ∧
    (isWhen → on → (when_ → structural s i = passes) ∧ (¬ when_ → structural s i = clkf 2 (tag q))) ∧
    (isCurr → on → (curr_ → structural s i = passes) ∧ (¬ curr_ → structural s i = clkf 2 (tag q))) ∧
    (isMerge → on → (tag q = 30 ∨ 13 ≤ tag q ∨ tag q = 0 → tag r < 2 ∨ 13 < tag r → structural s i = clkf 2 (tag q)) ∧ (pair →
      (¬ fits j q → structural s i = clkf 2 (tag q)) ∧ (fits j q → ¬ fits (j + 1) r → structural s i = clkf 2 (tag r)) ∧
      (fits j q → fits (j + 1) r → (halves → structural s i = passes) ∧
        (¬ halves → structural s i = clkf 2 (if one then tag q else tag r))))) ∧
    (i = .clkq k d m → s.act0.clocks[m.val].defd = false → k = .first ∨ k = .last ∨ (k = .clk n ∧ on) →
      structural s i = .trap 0x04 (m.val * 2 ^ 32 + word)) ∧
    (i = .clkq (.clk n) d m → on → s.act0.clocks[m.val].defd = true → structural s i = passes) ∧
    (s.act0.clocks[m.val].defd = true → let p := s.act0.clocks[0].pres
      (i = .clkq .first d m → structural s i = .go 0 (p && match s.act0.loops with | l :: _ => l.index = 0 | [] => false)) ∧
      (i = .clkq .last d m → structural s i = .go 0 (p && match s.act0.loops with | l :: _ => l.index + 1 = l.count | [] => false))) ∧
    (defines k1 → on → ¬ fits n.val (.s a) → structural s i = clkf 1 (tag (.s a))) ∧
    (defines k1 → on → fits n.val (.s a) → (∀ y ∈ k1, ¬ Descends s.act0 y n.val) → structural s i = passes) ∧
    (defines (k1 ++ j :: k2) → on → fits n.val (.s a) → (∀ y ∈ k1, ¬ Descends s.act0 y n.val) → Descends s.act0 j n.val →
      structural s i = clkf 3 j) ∧
    (moves = false → kOf i = .first ∨ kOf i = .last → first → readsOf i = l1 ++ q :: l2 → (∀ r ∈ l1, fits n.val r) →
      ¬ fits n.val q → structural s i = clkf 1 (tag q)) ∧
    (moves = false → privileged s.act0 i = true → (∀ r ∈ readsOf i, fits n.val r) → first →
      (kOf i = .first → structural s i = .go (BitVec.ofNat 5 n.val)
        (pres && match s.act0.loops with | m :: _ => m.index = 0 | [] => false)) ∧
      (kOf i = .last → structural s i = .go (BitVec.ofNat 5 n.val)
        (pres && match s.act0.loops with | m :: _ => m.index + 1 = m.count | [] => false)))

/-- R56-R61, R108, R350, R370: a bundle that cannot issue, by the first of the steps of R60 that fails. Undefined words are UNDEF; the X
slots of a run of more than two, or of one that no accepting slot follows, are ILLB with reason 2; slots that write one resource, pop one
feed or push to one feed, or that bind the second feed of an MMAS, with reason 3; the slots of a kind of unit asked for more often than
R59 allows, with reason 4. MASK names every such slot, TINFO the word of the lowest and the reason. A bundle without a stop bit is reason
1 over all eight slots; a pc outside the code section is WIN.
(Log 33: MASK of the WIN at the fetch.) -/
def Obligations.BundleChecks : Prop :=
  (
  ∀ (s : State) (ws : List (BitVec 32)) (l : List Instr) (mask slot : Nat),
    let code := codeOf s s.act0
    let trap := fun (cause mask slot reason : Nat) => Host.Outcome.next (takeTrap { s with iss := { Iss.idle with words := ws } }
      (cause + 256 * mask + 65536 * slot) 0 ((ws.getD slot 0).toNat + reason * 2 ^ 32))
    let fetches := fetchBundle code s.act0.pc
    let names := fun (p : Nat → Prop) => slot < ws.length ∧ p slot ∧ (∀ i < slot, ¬ p i) ∧
      ∀ i, mask.testBit i = true ↔ i < ws.length ∧ p i
    let undef := fun (i : Nat) => ∃ w, ws[i]? = some w ∧ ∀ x, decodeWord w = some x → undefHere s.act0 x.instr = true
    let decodes := fetches = .ok ws ∧ ws.map (fun w => (decodeWord w).map (·.instr)) = l.map some ∧ ∀ x ∈ l, undefHere s.act0 x = false
    let ext := fun (i : Nat) => ∃ p, l[i]? = some (.literalExtension p)
    let misused := fun (i : Nat) => ∃ b e, b ≤ i ∧ i < e ∧ (∀ j, b ≤ j → j < e → ext j) ∧ (b = 0 ∨ ¬ ext (b - 1)) ∧ ¬ ext e ∧
      (2 < e - b ∨ ∀ x, l[e]? = some x → acceptsExt x = false)
    let binds := fun (x y : Instr) => ∃ g a h t q b, x = .fbind g (q + 1) a ∧ (y = .mmasW0 h t q b ∨ y = .mmasW1 h t q b)
    let conflict := fun (x y : Instr) => (∃ r, r ≠ Res.s 0 ∧ r ∈ writesOf x ∧ r ∈ writesOf y) ∨ binds x y ∨ binds y x
    let clashes := fun (i : Nat) => ∃ j x y, i ≠ j ∧ l[i]? = some x ∧ l[j]? = some y ∧ conflict x y
    let limit := fun (u : UnitKind) => match u with
      | .salu => 2 | .smul => 1 | .vector => 2 | .vdiv => 1 | .memory => 2 | .matrix => 1 | .control => 1 | .clock => 1 | .engine => 1
      | .none => 8
    let crowds := fun (i : Nat) => ∃ x, l[i]? = some x ∧ limit (unitOf x) < l.countP fun y => unitOf y = unitOf x
    s.dev.badCode = [] →
    (fetches = .ok ws → names undef → issueBundle s = trap 0x02 mask slot 0) ∧
    (decodes → names misused → issueBundle s = trap 0x01 mask slot 2) ∧
    (decodes → (∀ i, ¬ misused i) → names clashes → issueBundle s = trap 0x01 mask slot 3) ∧
    (decodes → (∀ i, ¬ misused i) → (∀ i, ¬ clashes i) → names crowds → issueBundle s = trap 0x01 mask slot 4) ∧
    (fetches = .open_ ws → issueBundle s = trap 0x01 0xFF 0 1) ∧
    (fetches = .off → issueBundle s = .next (takeTrap s 0x07 code.length 0))) ∧
  (
  ∀ (k : KSel) (d a b : Fin 32) (e : EReg) (t : AReg) (c : Fin 14) (x : BitVec 21) (n : Fin 1024) (y : Fin 2048),
    let feed := fun (r : Res) (i : Instr) => r ∈ writesOf i
    (feed (.pop e) (.vldFeedPop k d e) ∧ feed (.pop e) (.mmaW0 k t e b) ∧ feed (.pop e) (.mmaW1 k t e b) ∧ feed (.pop e) (.mmasW0 k t e b) ∧
      feed (.pop (e + 1)) (.mmasW0 k t e b) ∧ feed (.pop e) (.mmasW1 k t e b) ∧ feed (.pop (e + 1)) (.mmasW1 k t e b) ∧
      feed (.pop e) (.wldW0 k e b) ∧ feed (.pop e) (.wldW1 k e b) ∧ feed (.push e) (.vstFeedPush k d e) ∧ feed (.e e) (.fbind k e a) ∧
      feed (.e e) (.funbind k e) ∧ feed (.e e) (.fflush k e) ∧ feed (.k c) (.clkundef k c) ∧ feed (.k (c + 1)) (.clksplit k c a) ∧
      feed (.s 30) (.jal k x) ∧ feed (.csr y.val) (.csrw k a y) ∧ feed .latches (.scl k a) ∧ feed (.a t) (.acol k t a b)) ∧
    (∀ i ∈ [Instr.br k x, .jal k x, .loop k a y, .loopi k n y, .lbrk k, .lnext k, .ldepth k d, .nop k, .yield k, .endAct k, .brk k,
      .waitGen k a b, .waitRidge k, .waitEq k a b, .waitGe k a b, .waitFeed k e, .rft k a b, .kill k a b, .halt k], unitOf i = .control) ∧
    (∀ i ∈ [Instr.clkon k c a, .clkoff k c a, .clksplit k c a, .clkq k d c, .clkundef k c], unitOf i = .clock))

/-- R23, R190, R373, R375, R376, R378: taking a trap. The bundle is cancelled: registers, memory, SEQ and pc are those before it;
the record holds TCAUSE, the bundle's address, TADDR, the stamp with the SEQ, and TINFO; the activation freezes, and its results in
flight become snapshot entries at their distance. A speculative activation holds the trap, one that still holds effects back has it
wait behind their release, any other has it delivered, to wait for its handler or the tear-down that takes its place; an XLAT whose
tile the resident service can map is repaired, and the slot resumes, its handle freed.
(Log 33: MASK of a WIN at the fetch. Log 34: the service maps the tile within the trap's own step. Log 17: the handle then. Log 48:
a trap behind effects still held. Log 57: the tear-down comes with the handler's turn.) -/
def Obligations.TrapEntry : Prop :=
  ∀ (s w : State) (cause addr info n : Nat) (r : Run),
    let b := { s with act := s.act0, dev := s.dev0, iss := { s.iss with status := .trapped } }
    let a := s.act0
    let u := takeTrap s cause addr info
    let rec_ : TrapRec := {
      cause := BitVec.ofNat 64 cause, pc := BitVec.ofNat 64 a.pc, addr := BitVec.ofNat 64 addr, info := BitVec.ofNat 64 info
      stamp := BitVec.ofNat 64 (a.stamp.index % 2 ^ 24 * 2 ^ 40 + a.stamp.task % 256 * 2 ^ 32 + a.seq.toNat) }
    let freezes := fun (stage : FrozenStage) => u.act.status = .frozen ∧ u.act.frozen = some { record := rec_, stage := stage } ∧
      u.act.pc = a.pc ∧ u.act.s = a.s ∧ u.act.v = a.v ∧ u.act.sTag = a.sTag ∧ u.act.vTag = a.vTag ∧ u.act.clocks = a.clocks ∧
      u.act.fpc = a.fpc ∧ u.act.loops = a.loops ∧ u.act.seq = a.seq ∧ u.act.inflight = a.inflight.filter (fun f => !f.arrived) ∧
      u.act.snapshot = a.snapshot ++ (a.inflight.filter (·.arrived)).map (fun f => { f with due := f.due - a.adv }) ∧
      u.dev.mem = s.dev0.mem ∧ u.dev.runs = s.dev0.runs ∧ u.iss.status = .trapped
    (speculative b a = true → freezes .held) ∧
    (speculative b a = false → a.held ≠ [] → freezes .behind) ∧
    (speculative b a = false → a.held = [] → cause % 256 ≠ 0x09 ∨ runOfKey a.key = none → freezes .delivered) ∧
    (speculative b a = false → a.held = [] → cause % 256 = 0x09 → runOfKey a.key = some n →
      let f := freezeAct a rec_ .delivered
      let v := yieldCore { b with act := f } a
      let freed := fun (e : HandleEntry) => if e.who = some a.key then { e with who := none, gen := e.gen + 1 } else e
      (serviceMap v n rec_.addr.toNat = none → freezes .delivered) ∧
      (serviceMap v n rec_.addr.toNat = some w → w.act = f → a.saved = none → findRun w.dev n = some r → u = { w with
        act := { f with
          frozen := none, status := if a.place.isSome then .ready else .pending, trap := if isHandler a then a.trap else rec_
          inflight := f.inflight ++ f.snapshot.map (fun g => { g with due := a.adv + g.due }), snapshot := [], handle := 0 }
        dev := putRun w.dev { r with handles := r.handles.map freed } }))

/-! ## What an instruction leaves alone -/

/-- R11, R22-R24, R38, R63, R102: what the register instructions leave unchanged. A SALU, SMUL, vector or divide slot that takes
effect and does not write a CSR changes no register, tag, clock, flag register, memory byte or other part of the machine at its
issue: it puts results in flight, and only to the destination its encoding names. A control slot other than a wait on memory or
on the ridge, END or a SYS member does the same. A write of FPC, VPART or PWAKE changes no register, clock, loop or memory byte. -/
def Obligations.RegisterFrames : Prop :=
  ∀ (s u : State) (i : Instr) (t : Tag), Effective s i t → exec i s = .next u → u.iss.status = .running →
    let writesCsr := match i with | .csrw .. => true | .csrs .. => true | .csrc .. => true | _ => false
    let sys := match i with
      | .rft .. => true | .kill .. => true | .snapr .. => true | .snapw .. => true | .ctxsv .. => true | .ctxld .. => true
      | .ttinv .. => true | .waitGen .. => true | .waitEq .. => true | .waitGe .. => true
      | .waitRidge .. => true | .endAct .. => true | _ => false
    let only := u.dev = s.dev ∧ u.dev0 = s.dev0 ∧ u.act0 = s.act0 ∧ u.agenda = s.agenda ∧
      ∃ l : List InFlight, u.act = { s.act with inflight := s.act.inflight ++ l } ∧
        ∀ f ∈ l, (∃ r, f.dest = .s r ∧ Res.s r ∈ writesOf i) ∨ (∃ r, f.dest = .v r ∧ Res.v r ∈ writesOf i)
    (unitOf i = .salu ∨ unitOf i = .smul ∨ unitOf i = .vector ∨ unitOf i = .vdiv → writesCsr = false → only) ∧
    (unitOf i = .control → sys = false → only) ∧
    (writesCsr = true → Res.csr 0x101 ∉ writesOf i → u.act.s = s.act.s ∧ u.act.v = s.act.v ∧ u.act.sTag = s.act.sTag ∧ u.act.vTag = s.act.vTag ∧
      u.act.clocks = s.act.clocks ∧ u.act.loops = s.act.loops ∧ u.act.seq = s.act.seq ∧ u.act.inflight = s.act.inflight ∧
      u.dev.mem = s.dev.mem ∧ u.dev.runs = s.dev.runs)

/-- R42-R44, R122, R124, R247, R269, R280, R283, R287-R296: what the memory instructions leave unchanged. A store changes no byte
but those of its own width from the address its pointer leads to; a form that stores nothing changes no byte of memory, a push,
FBIND, FUNBIND or FFLUSH where no other slot of the bundle has touched its feed or is END. No register's value changes at issue, and
no tag but the destination's; flags, clocks, loops, FPC and pc stay. -/
def Obligations.StoreFrames : Prop :=
  ∀ (s u : State) (i : Instr) (t : Tag) (k : KSel) (d a b : Fin 32) (off : BitVec 8) (w : StW) (aw : AtomW) (sc : Scope) (ew : EWidth)
    (x : Nat), memWf s.dev.mem = true → Effective s i t → exec i s = .next u → u.iss.status = .running →
    let same := memRead u.dev.mem x = memRead s.dev.mem x
    let p : Int := (readS s.act0 a).toNat
    let sn : Nat := match w with | .i8 => 1 | .i16 => 2 | .i32 => 4 | .i64 => 8
    let an : Nat := match aw with | .w32 => 4 | .w64 => 8
    let stores := fun (addr : Int) (n : Nat) (kind : AccKind) => ∀ l, locate s s.act0 addr n n kind true 0 = .ok l →
      x < l.addr ∨ l.addr + n ≤ x → same
    let lanes_ := fun (f : Nat → Int) => ∀ g : Nat → Located, (∀ j, j < lanes (ewBits ew) →
        locate s s.act0 (f j) (ewBits ew / 8) (ewBits ew / 8) .store true j = .ok (g j) ∧
        (x < (g j).addr ∨ (g j).addr + ewBits ew / 8 ≤ x)) → same
    let atom := i = .atomAdd k a b aw ∨ i = .atomMin k a b aw ∨ i = .atomMax k a b aw ∨ i = .atomMinn k a b aw ∨
      i = .atomMaxn k a b aw ∨ i = .atomAnd k a b aw ∨ i = .atomOr k a b aw ∨ i = .atomXor k a b aw
    let atomr := i = .fetchadd k d a b aw ∨ i = .swap k d a b aw ∨ i = .cas k d a b aw ∨ i = .fetchmin k d a b aw ∨
      i = .fetchmax k d a b aw
    let alone := fun (e : EReg) => feedOf s.act e = feedOf s.act0 e ∧ s.iss.ctl ≠ .endAct
    let loads := match i with
      | .ld .. => True | .vld .. => True | .vldFeedPop .. => True | .vlds .. => True | .vgath .. => True
      | .ldt .. => True | .ldacq .. => True | .strel .. => True | .fence .. => True | .fstat .. => True
      | .fbyScalar .. => True | .fbyVector .. => True | .pref .. => True
      | .vstFeedPush _ _ e => alone e | .fbind _ e _ => alone e | .funbind _ e => alone e | .fflush _ e => alone e | _ => False
    (i = .st k d a w off → stores (p + (sn : Nat) * off.toInt) sn .store) ∧ (i = .vst k d a off → stores (p + 256 * off.toInt) 256 .store) ∧
    (atom → stores p an .atom) ∧ (i = .xadd32 k a b → stores p 32 .atom) ∧ (atomr → stores p an .atomr) ∧
    (i = .vsts k d a b ew → lanes_ fun j => p + j * (readS s.act0 b).toInt) ∧
    (i = .vscat k d a b ew → lanes_ fun j => p + lane (ewBits ew) (readV s.act0 b) j * (ewBits ew / 8 : Nat)) ∧
    (loads → same) ∧
    (unitOf i = .memory → u.act.s = s.act.s ∧ u.act.v = s.act.v ∧ u.act.clocks = s.act.clocks ∧ u.act.loops = s.act.loops ∧
      u.act.fpc = s.act.fpc ∧ u.act.vpart = s.act.vpart ∧ u.act.pc = s.act.pc ∧ u.act.trap = s.act.trap ∧ u.iss.flags = s.iss.flags ∧
      (∀ r : Fin 32, Res.s r ∉ writesOf i → u.act.sTag[r.val] = s.act.sTag[r.val]) ∧
      (∀ r : Fin 32, Res.v r ∉ writesOf i → u.act.vTag[r.val] = s.act.vTag[r.val]))

/-! ## Reset, and what every step keeps -/

/-- R13, R125, R195, R196, R336, R339, R431: the machine at power-on. No run, queue, image or key; PWAKE 0xF000, the
budgets' shares, empty weight banks; the stewards not started. An activation's first bundle finds s1 its argument with tag 0,
every other register stale but s0, k0 alone defined, FPC 1, an empty loop stack, SEQ 0. Memory is in canonical form, with no
byte listed. (Log 3: register values the manual leaves open are 0. Log 5: the cores are gated. Log 7: memory lists nothing. Log 9: no key is set.) -/
def Obligations.ResetState : Prop :=
  ∀ (key : ActKey) (stamp : Stamp) (task : Nat) (arg weight : Word), let d := State.reset.dev
    let a := Act.fresh key stamp task arg weight
    MemOk State.reset ∧ d.mem = [] ∧ d.runs = [] ∧ d.queues = [] ∧ d.images = [] ∧ d.keys = [] ∧ d.cells = [] ∧ d.boot = .off ∧
    d.pwake = 0xF000 ∧ (∀ i : Fin 256, d.homeShares[i.val] =
      { program := 2560, settling := 0, scrubbing := 64, copies := 768, collectives := 512, checksums := 192 }) ∧
    (∀ v : Fin 32, d.vaultShares[v.val] =
      { program := 2304, settling := 512, scrubbing := 64, copies := 640, collectives := 384, checksums := 192 }) ∧
    (∀ c : Fin 32, d.cores[c.val].w0 = Bank.empty ∧ d.cores[c.val].w1 = Bank.empty ∧ d.cores[c.val].current = none ∧
      ∀ t : Fin 16, d.cores[c.val].tiles[t.val].tag = 31) ∧
    (∀ b ∈ acts State.reset, b.status = .off ∧ isService b = true) ∧
    readS a 0 = 0 ∧ tagS a 0 = 30 ∧ readS a 1 = arg ∧ tagS a 1 = 0 ∧
    (∀ r : SReg, 2 ≤ r.val → tagS a r = 31) ∧ (∀ r : VReg, tagV a r = 31) ∧
    (∀ n : Fin 14, a.clocks[n.val].defd = decide (n = 0)) ∧ a.clocks[0].pres = true ∧ a.fpc = 1 ∧ a.vpart = 0 ∧ a.loops = [] ∧
    a.seq = 0 ∧ a.inflight = [] ∧ a.trap = TrapRec.zero ∧ a.stamp = stamp

/-- R4, R224, R432: every step of the machine keeps the device's memory, and its copy before the bundle, in canonical form:
addresses rising, no byte listed that reads as an unlisted one does. So equal memories are equal data.
(Log 7: an unlisted byte reads 0.) -/
def Obligations.StepKeepsMemory : Prop := Keeps MemOk

/-! ## Exact arithmetic, rounded once (R7, R74-R82, R142) -/

/-- R73-R78: the rounding of an exact non-zero number into a format, in every mode, with its flags: the number the mode
chooses among the format's, NX exactly where it is inexact, UF where it is also tiny, or the overflow of R76. -/
def Obligations.RoundingChoosesTheNearest : Prop :=
  ∀ (f : FFmt) (mode : Mode) (neg : Bool) (m : Nat) (e : Int), f ∈ floatFormats → m ≠ 0 →
    Rounded f mode (fval (.fin neg m e)) (roundFin f mode neg m e)

/-- R73, R74, R77, R80, R81, R142, R152: sums, differences, products, fused products, quotients, roots and scalings of finite
numbers are the exact result rounded once; an exact zero takes the IEEE sign and raises no flag; a NaN operand is propagated,
quietened, the first in the order A, B, D, with NV where one is signalling, or where a fused product of 0 and an infinity meets a
NaN addend; invalid operations give the canonical NaN and NV; a finite number over zero is an
infinity with DZ; an infinity is kept, or under SAT becomes the largest finite number with NX. -/
def Obligations.ArithmeticRoundsOnce : Prop :=
  ∀ (f : FFmt) (mode : Mode) (a b c : Nat) (np nd zs : Bool) (k : Int), f ∈ floatFormats →
    let x := decodeF f a
    let y := decodeF f b
    let z := decodeF f c
    let fin := fun (v : FVal) => ∃ n m e, v = .fin n m e
    let sgn := fun (p : Bool) (q : ℚ) => if p then -q else q
    let one := fun (q : ℚ) (r : FRes) => q ≠ 0 → Rounded f mode q r
    let nanOf := fun (v : Nat) (s : Bool) (r : FRes) => r = (quieten f v, { nv := s, dz := false, of := false, uf := false, nx := false })
    let signals := isSNaN x || isSNaN y
    let bad := (canonNaN f, flagNV true)
    let isInf := fun (v : FVal) => ∃ g, v = .inf g
    let zeroInf := (isInf x ∧ fin y ∧ fval y = 0) ∨ (fin x ∧ fval x = 0 ∧ isInf y)
    let infProduct := (isInf x ∧ (isInf y ∨ (fin y ∧ fval y ≠ 0))) ∨ (fin x ∧ fval x ≠ 0 ∧ isInf y)
    let p := (signOf x != signOf y) != np
    let inf := fun (g dz : Bool) => if mode = .sat then
        (withSign f g (maxMag f), ({ nv := false, dz := dz, of := false, uf := false, nx := true } : Flags))
      else (withSign f g (infMag f), { nv := false, dz := dz, of := false, uf := false, nx := false })
    (fin x → fin y → one (fval x + fval y) (fAdd f mode a b) ∧ one (fval x - fval y) (fSub f mode a b) ∧
      one (fval x * fval y) (fMul f mode a b) ∧ (fval y ≠ 0 → one (fval x / fval y) (fDiv f mode a b)) ∧
      (fval x + fval y = 0 → fAdd f mode a b = (withSign f (if fval x = 0 ∧ signOf x = signOf y then signOf x else decide (mode = .rdn)) 0, noFlags)) ∧
      (fval x * fval y = 0 → fMul f mode a b = (withSign f (signOf x != signOf y) 0, noFlags)) ∧
      (fval x - fval y = 0 → fSub f mode a b = (withSign f (if fval x = 0 ∧ signOf x ≠ signOf y then signOf x else decide (mode = .rdn)) 0, noFlags)) ∧
      (fval x = 0 → fval y ≠ 0 → fDiv f mode a b = (withSign f (signOf x != signOf y) 0, noFlags)) ∧
      (fval x ≠ 0 → fval y = 0 → fDiv f mode a b = inf (signOf x != signOf y) true) ∧
      (fval x = 0 → fval y = 0 → fDiv f mode a b = bad)) ∧
    (fin x → fin y → fin z → one (sgn np (fval x * fval y) + sgn nd (fval z)) (fFma f mode np nd a b c) ∧
      (sgn np (fval x * fval y) + sgn nd (fval z) = 0 →
        fFma f mode np nd a b c = (withSign f (if fval x * fval y = 0 ∧ p = (signOf z != nd) then p else decide (mode = .rdn)) 0, noFlags))) ∧
    (isNaN x = true → nanOf a (signals || isSNaN z) (fFma f mode np nd a b c)) ∧
    (isNaN x = false → isNaN y = true → nanOf b (isSNaN y || isSNaN z) (fFma f mode np nd a b c)) ∧
    (isNaN x = false → isNaN y = false → isNaN z = true → ∀ nv : Bool, (nv = true ↔ isSNaN z = true ∨ zeroInf) → nanOf c nv (fFma f mode np nd a b c)) ∧
    (isNaN z = false → zeroInf → fFma f mode np nd a b c = bad) ∧
    (infProduct → fin z → fFma f mode np nd a b c = inf p false) ∧
    (infProduct → z = .inf zs → fFma f mode np nd a b c = (if p = (zs != nd) then inf p false else bad)) ∧
    (fin x → fin y → z = .inf zs → fFma f mode np nd a b c = inf (zs != nd) false) ∧
    (isNaN x = true → nanOf a signals (fAdd f mode a b) ∧ nanOf a signals (fSub f mode a b) ∧ nanOf a signals (fMul f mode a b) ∧
      nanOf a signals (fDiv f mode a b)) ∧
    (isNaN x = false → isNaN y = true → nanOf b signals (fAdd f mode a b) ∧ nanOf b signals (fSub f mode a b) ∧
      nanOf b signals (fMul f mode a b) ∧ nanOf b signals (fDiv f mode a b)) ∧
    (x = .inf np → y = .inf nd →
      fAdd f mode a b = (if np = nd then inf np false else bad) ∧ fSub f mode a b = (if np = nd then bad else inf np false) ∧
      fMul f mode a b = inf (np != nd) false ∧ fDiv f mode a b = bad) ∧
    (x = .inf np → fin y → fAdd f mode a b = inf np false ∧ fSub f mode a b = inf np false ∧
      fMul f mode a b = (if fval y = 0 then bad else inf (np != signOf y) false) ∧ fDiv f mode a b = inf (np != signOf y) false) ∧
    (fin x → y = .inf nd → fAdd f mode a b = inf nd false ∧ fSub f mode a b = inf (!nd) false ∧
      fMul f mode a b = (if fval x = 0 then bad else inf (signOf x != nd) false) ∧
      fDiv f mode a b = (withSign f (signOf x != nd) 0, noFlags)) ∧
    (isNaN x = true → nanOf a (isSNaN x) (fSqrt f mode a) ∧ nanOf a (isSNaN x) (fScalb f mode a k)) ∧
    (fin x → fval x = 0 → fSqrt f mode a = (withSign f (signOf x) 0, noFlags) ∧ fScalb f mode a k = (withSign f (signOf x) 0, noFlags)) ∧
    (fin x → fval x < 0 → fSqrt f mode a = bad) ∧ (fin x → 0 < fval x → RootRounded f mode (fval x) (fSqrt f mode a)) ∧
    (fin x → one (fval x * (2 : ℚ) ^ k) (fScalb f mode a k)) ∧
    (x = .inf np → fSqrt f mode a = (if np then bad else inf false false) ∧ fScalb f mode a k = inf np false)
end

