-- ==== Sys2Proof/Laws/Exec.lean ====
section
/-! SUPPORT. What `exec` is for each constructor: its meaning, by definition. -/
namespace Sys2Proof.Machine

theorem exec_add (k d a b s) : exec (.add k d a b) s = execAdd k d a b s := rfl
theorem exec_sub (k d a b s) : exec (.sub k d a b) s = execSub k d a b s := rfl
theorem exec_and (k d a b s) : exec (.and k d a b) s = execAnd k d a b s := rfl
theorem exec_or (k d a b s) : exec (.or k d a b) s = execOr k d a b s := rfl
theorem exec_xor (k d a b s) : exec (.xor k d a b) s = execXor k d a b s := rfl
theorem exec_andn (k d a b s) : exec (.andn k d a b) s = execAndn k d a b s := rfl
theorem exec_shl (k d a b s) : exec (.shl k d a b) s = execShl k d a b s := rfl
theorem exec_shr (k d a b s) : exec (.shr k d a b) s = execShr k d a b s := rfl
theorem exec_sar (k d a b s) : exec (.sar k d a b) s = execSar k d a b s := rfl
theorem exec_rotr (k d a b s) : exec (.rotr k d a b) s = execRotr k d a b s := rfl
theorem exec_min (k d a b s) : exec (.min k d a b) s = execMin k d a b s := rfl
theorem exec_max (k d a b s) : exec (.max k d a b) s = execMax k d a b s := rfl
theorem exec_minn (k d a b s) : exec (.minn k d a b) s = execMinn k d a b s := rfl
theorem exec_maxn (k d a b s) : exec (.maxn k d a b) s = execMaxn k d a b s := rfl
theorem exec_seq (k d a b s) : exec (.seq k d a b) s = execSeq k d a b s := rfl
theorem exec_sne (k d a b s) : exec (.sne k d a b) s = execSne k d a b s := rfl
theorem exec_slt (k d a b s) : exec (.slt k d a b) s = execSlt k d a b s := rfl
theorem exec_sltn (k d a b s) : exec (.sltn k d a b) s = execSltn k d a b s := rfl
theorem exec_sel (k d a b s) : exec (.sel k d a b) s = execSel k d a b s := rfl
theorem exec_clz (k d a s) : exec (.clz k d a) s = execClz k d a s := rfl
theorem exec_ctz (k d a s) : exec (.ctz k d a) s = execCtz k d a s := rfl
theorem exec_popc (k d a s) : exec (.popc k d a) s = execPopc k d a s := rfl
theorem exec_padd (k d a b s) : exec (.padd k d a b) s = execPadd k d a b s := rfl
theorem exec_mul (k d a b s) : exec (.mul k d a b) s = execMul k d a b s := rfl
theorem exec_mulh (k d a b s) : exec (.mulh k d a b) s = execMulh k d a b s := rfl
theorem exec_mulhn (k d a b s) : exec (.mulhn k d a b) s = execMulhn k d a b s := rfl
theorem exec_div (k d a b s) : exec (.div k d a b) s = execDiv k d a b s := rfl
theorem exec_divn (k d a b s) : exec (.divn k d a b) s = execDivn k d a b s := rfl
theorem exec_rem (k d a b s) : exec (.rem k d a b) s = execRem k d a b s := rfl
theorem exec_remn (k d a b s) : exec (.remn k d a b) s = execRemn k d a b s := rfl
theorem exec_addi (k d a imm s) : exec (.addi k d a imm) s = execAddi k d a imm s := rfl
theorem exec_andi (k d a imm s) : exec (.andi k d a imm) s = execAndi k d a imm s := rfl
theorem exec_ori (k d a imm s) : exec (.ori k d a imm) s = execOri k d a imm s := rfl
theorem exec_xori (k d a imm s) : exec (.xori k d a imm) s = execXori k d a imm s := rfl
theorem exec_shli (k d a n s) : exec (.shli k d a n) s = execShli k d a n s := rfl
theorem exec_shri (k d a n s) : exec (.shri k d a n) s = execShri k d a n s := rfl
theorem exec_sari (k d a n s) : exec (.sari k d a n) s = execSari k d a n s := rfl
theorem exec_slti (k d a imm s) : exec (.slti k d a imm) s = execSlti k d a imm s := rfl
theorem exec_sltni (k d a imm s) : exec (.sltni k d a imm) s = execSltni k d a imm s := rfl
theorem exec_li (k d imm s) : exec (.li k d imm) s = execLi k d imm s := rfl
theorem exec_csrr (k d csr s) : exec (.csrr k d csr) s = execCsrr k d csr s := rfl
theorem exec_csrw (k a csr s) : exec (.csrw k a csr) s = execCsrw k a csr s := rfl
theorem exec_csrs (k a csr s) : exec (.csrs k a csr) s = execCsrs k a csr s := rfl
theorem exec_csrc (k a csr s) : exec (.csrc k a csr) s = execCsrc k a csr s := rfl
theorem exec_br (k disp s) : exec (.br k disp) s = execBr k disp s := rfl
theorem exec_jal (k disp s) : exec (.jal k disp) s = execJal k disp s := rfl
theorem exec_jalr (k d a imm s) : exec (.jalr k d a imm) s = execJalr k d a imm s := rfl
theorem exec_loop (k a len s) : exec (.loop k a len) s = execLoop k a len s := rfl
theorem exec_loopi (k cnt len s) : exec (.loopi k cnt len) s = execLoopi k cnt len s := rfl
theorem exec_lidx (k d level s) : exec (.lidx k d level) s = execLidx k d level s := rfl
theorem exec_lbrk (k s) : exec (.lbrk k) s = execLbrk k s := rfl
theorem exec_lnext (k s) : exec (.lnext k) s = execLnext k s := rfl
theorem exec_ldepth (k d s) : exec (.ldepth k d) s = execLdepth k d s := rfl
theorem exec_nop (k s) : exec (.nop k) s = execNop k s := rfl
theorem exec_yield (k s) : exec (.yield k) s = execYield k s := rfl
theorem exec_endAct (k s) : exec (.endAct k) s = execEndAct k s := rfl
theorem exec_brk (k s) : exec (.brk k) s = execBrk k s := rfl
theorem exec_waitGen (k a b s) : exec (.waitGen k a b) s = execWaitGen k a b s := rfl
theorem exec_waitRidge (k s) : exec (.waitRidge k) s = execWaitRidge k s := rfl
theorem exec_waitEq (k a b s) : exec (.waitEq k a b) s = execWaitEq k a b s := rfl
theorem exec_waitGe (k a b s) : exec (.waitGe k a b) s = execWaitGe k a b s := rfl
theorem exec_waitFeed (k a s) : exec (.waitFeed k a) s = execWaitFeed k a s := rfl
theorem exec_trap (k imm s) : exec (.trap k imm) s = execTrap k imm s := rfl
theorem exec_clkon (k d a s) : exec (.clkon k d a) s = execClkon k d a s := rfl
theorem exec_clkoff (k d a s) : exec (.clkoff k d a) s = execClkoff k d a s := rfl
theorem exec_clksplit (k d a s) : exec (.clksplit k d a) s = execClksplit k d a s := rfl
theorem exec_clkq (k d a s) : exec (.clkq k d a) s = execClkq k d a s := rfl
theorem exec_clkundef (k d s) : exec (.clkundef k d) s = execClkundef k d s := rfl
theorem exec_whenScalar (k d a s) : exec (.whenScalar k d a) s = execWhenScalar k d a s := rfl
theorem exec_whenVector (k d a s) : exec (.whenVector k d a) s = execWhenVector k d a s := rfl
theorem exec_currScalar (k d a s) : exec (.currScalar k d a) s = execCurrScalar k d a s := rfl
theorem exec_currVector (k d a s) : exec (.currVector k d a) s = execCurrVector k d a s := rfl
theorem exec_mergeScalar (k d a b s) : exec (.mergeScalar k d a b) s = execMergeScalar k d a b s := rfl
theorem exec_mergeVector (k d a b s) : exec (.mergeVector k d a b) s = execMergeVector k d a b s := rfl
theorem exec_vadd (k d a b t m s) : exec (.vadd k d a b t m) s = execVadd k d a b t m s := rfl
theorem exec_vsub (k d a b t m s) : exec (.vsub k d a b t m) s = execVsub k d a b t m s := rfl
theorem exec_vmul (k d a b t m s) : exec (.vmul k d a b t m) s = execVmul k d a b t m s := rfl
theorem exec_vfma (k d a b t m s) : exec (.vfma k d a b t m) s = execVfma k d a b t m s := rfl
theorem exec_vfms (k d a b t m s) : exec (.vfms k d a b t m) s = execVfms k d a b t m s := rfl
theorem exec_vfnma (k d a b t m s) : exec (.vfnma k d a b t m) s = execVfnma k d a b t m s := rfl
theorem exec_vdiv (k d a b t m s) : exec (.vdiv k d a b t m) s = execVdiv k d a b t m s := rfl
theorem exec_vsqrt (k d a t m s) : exec (.vsqrt k d a t m) s = execVsqrt k d a t m s := rfl
theorem exec_vminmax (k d a b t m s) : exec (.vminmax k d a b t m) s = execVminmax k d a b t m s := rfl
theorem exec_vcmp (k d a b t c s) : exec (.vcmp k d a b t c) s = execVcmp k d a b t c s := rfl
theorem exec_vcvt (k d a dst src r s) : exec (.vcvt k d a dst src r) s = execVcvt k d a dst src r s := rfl
theorem exec_vbitAnd (k d a b s) : exec (.vbitAnd k d a b) s = execVbitAnd k d a b s := rfl
theorem exec_vbitOr (k d a b s) : exec (.vbitOr k d a b) s = execVbitOr k d a b s := rfl
theorem exec_vbitXor (k d a b s) : exec (.vbitXor k d a b) s = execVbitXor k d a b s := rfl
theorem exec_vbitAndn (k d a b s) : exec (.vbitAndn k d a b) s = execVbitAndn k d a b s := rfl
theorem exec_vbitNot (k d a s) : exec (.vbitNot k d a) s = execVbitNot k d a s := rfl
theorem exec_vshiftShl (k d a b t s) : exec (.vshiftShl k d a b t) s = execVshiftShl k d a b t s := rfl
theorem exec_vshiftShr (k d a b t s) : exec (.vshiftShr k d a b t) s = execVshiftShr k d a b t s := rfl
theorem exec_vshiftSar (k d a b t s) : exec (.vshiftSar k d a b t) s = execVshiftSar k d a b t s := rfl
theorem exec_vshiftRotr (k d a b t s) : exec (.vshiftRotr k d a b t) s = execVshiftRotr k d a b t s := rfl
theorem exec_vunaryAbs (k d a t s) : exec (.vunaryAbs k d a t) s = execVunaryAbs k d a t s := rfl
theorem exec_vunaryNeg (k d a t s) : exec (.vunaryNeg k d a t) s = execVunaryNeg k d a t s := rfl
theorem exec_vunaryClass (k d a t s) : exec (.vunaryClass k d a t) s = execVunaryClass k d a t s := rfl
theorem exec_vunaryGetexp (k d a t s) : exec (.vunaryGetexp k d a t) s = execVunaryGetexp k d a t s := rfl
theorem exec_vunaryClz (k d a t s) : exec (.vunaryClz k d a t) s = execVunaryClz k d a t s := rfl
theorem exec_vunaryPopc (k d a t s) : exec (.vunaryPopc k d a t) s = execVunaryPopc k d a t s := rfl
theorem exec_vunaryRcpe (k d a t s) : exec (.vunaryRcpe k d a t) s = execVunaryRcpe k d a t s := rfl
theorem exec_vunaryRsqe (k d a t s) : exec (.vunaryRsqe k d a t) s = execVunaryRsqe k d a t s := rfl
theorem exec_vscalb (k d a b t m s) : exec (.vscalb k d a b t m) s = execVscalb k d a b t m s := rfl
theorem exec_vsel (k d a b w s) : exec (.vsel k d a b w) s = execVsel k d a b w s := rfl
theorem exec_vbcast (k d a w s) : exec (.vbcast k d a w) s = execVbcast k d a w s := rfl
theorem exec_vext (k d a b w s) : exec (.vext k d a b w) s = execVext k d a b w s := rfl
theorem exec_vins (k d a b w s) : exec (.vins k d a b w) s = execVins k d a b w s := rfl
theorem exec_vperm (k d a b w s) : exec (.vperm k d a b w) s = execVperm k d a b w s := rfl
theorem exec_vslideup (k d a b w s) : exec (.vslideup k d a b w) s = execVslideup k d a b w s := rfl
theorem exec_vslidedn (k d a b w s) : exec (.vslidedn k d a b w) s = execVslidedn k d a b w s := rfl
theorem exec_viota (k d w s) : exec (.viota k d w) s = execViota k d w s := rfl
theorem exec_vredSum (k d a t r s) : exec (.vredSum k d a t r) s = execVredSum k d a t r s := rfl
theorem exec_vredMin (k d a t r s) : exec (.vredMin k d a t r) s = execVredMin k d a t r s := rfl
theorem exec_vredMax (k d a t r s) : exec (.vredMax k d a t r) s = execVredMax k d a t r s := rfl
theorem exec_vredAnd (k d a t s) : exec (.vredAnd k d a t) s = execVredAnd k d a t s := rfl
theorem exec_vredOr (k d a t s) : exec (.vredOr k d a t) s = execVredOr k d a t s := rfl
theorem exec_vredXor (k d a t s) : exec (.vredXor k d a t) s = execVredXor k d a t s := rfl
theorem exec_vredFsumx (k d a t r s) : exec (.vredFsumx k d a t r) s = execVredFsumx k d a t r s := rfl
theorem exec_vredScan (k d a t r s) : exec (.vredScan k d a t r) s = execVredScan k d a t r s := rfl
theorem exec_vxaccP32 (k d a b s) : exec (.vxaccP32 k d a b) s = execVxaccP32 k d a b s := rfl
theorem exec_vxaccS32 (k d a s) : exec (.vxaccS32 k d a) s = execVxaccS32 k d a s := rfl
theorem exec_vxaccP64 (k d a b s) : exec (.vxaccP64 k d a b) s = execVxaccP64 k d a b s := rfl
theorem exec_vxaccS64 (k d a s) : exec (.vxaccS64 k d a) s = execVxaccS64 k d a s := rfl
theorem exec_xinit (k d a s) : exec (.xinit k d a) s = execXinit k d a s := rfl
theorem exec_xadd (k d a b s) : exec (.xadd k d a b) s = execXadd k d a b s := rfl
theorem exec_xexpp (k d a b s) : exec (.xexpp k d a b) s = execXexpp k d a b s := rfl
theorem exec_xexps (k d a s) : exec (.xexps k d a) s = execXexps k d a s := rfl
theorem exec_spawn (k d a b s) : exec (.spawn k d a b) s = execSpawn k d a b s := rfl
theorem exec_spawnc (k d a b s) : exec (.spawnc k d a b) s = execSpawnc k d a b s := rfl
theorem exec_resolve (k a b s) : exec (.resolve k a b) s = execResolve k a b s := rfl
theorem exec_resolven (k a b s) : exec (.resolven k a b) s = execResolven k a b s := rfl
theorem exec_launch (k d a b s) : exec (.launch k d a b) s = execLaunch k d a b s := rfl
theorem exec_ld (k d a w off s) : exec (.ld k d a w off) s = execLd k d a w off s := rfl
theorem exec_st (k d a w off s) : exec (.st k d a w off) s = execSt k d a w off s := rfl
theorem exec_vld (k d a off s) : exec (.vld k d a off) s = execVld k d a off s := rfl
theorem exec_vldFeedPop (k d a s) : exec (.vldFeedPop k d a) s = execVldFeedPop k d a s := rfl
theorem exec_vst (k d a off s) : exec (.vst k d a off) s = execVst k d a off s := rfl
theorem exec_vstFeedPush (k d a s) : exec (.vstFeedPush k d a) s = execVstFeedPush k d a s := rfl
theorem exec_fbyScalar (k d a b s) : exec (.fbyScalar k d a b) s = execFbyScalar k d a b s := rfl
theorem exec_fbyVector (k d a b s) : exec (.fbyVector k d a b) s = execFbyVector k d a b s := rfl
theorem exec_vlds (k d a b w s) : exec (.vlds k d a b w) s = execVlds k d a b w s := rfl
theorem exec_vsts (k d a b w s) : exec (.vsts k d a b w) s = execVsts k d a b w s := rfl
theorem exec_vgath (k d a b w s) : exec (.vgath k d a b w) s = execVgath k d a b w s := rfl
theorem exec_vscat (k d a b w s) : exec (.vscat k d a b w) s = execVscat k d a b w s := rfl
theorem exec_ldt (k d a c w s) : exec (.ldt k d a c w) s = execLdt k d a c w s := rfl
theorem exec_atomAdd (k a b w s) : exec (.atomAdd k a b w) s = execAtomAdd k a b w s := rfl
theorem exec_atomMin (k a b w s) : exec (.atomMin k a b w) s = execAtomMin k a b w s := rfl
theorem exec_atomMax (k a b w s) : exec (.atomMax k a b w) s = execAtomMax k a b w s := rfl
theorem exec_atomMinn (k a b w s) : exec (.atomMinn k a b w) s = execAtomMinn k a b w s := rfl
theorem exec_atomMaxn (k a b w s) : exec (.atomMaxn k a b w) s = execAtomMaxn k a b w s := rfl
theorem exec_atomAnd (k a b w s) : exec (.atomAnd k a b w) s = execAtomAnd k a b w s := rfl
theorem exec_atomOr (k a b w s) : exec (.atomOr k a b w) s = execAtomOr k a b w s := rfl
theorem exec_atomXor (k a b w s) : exec (.atomXor k a b w) s = execAtomXor k a b w s := rfl
theorem exec_xadd32 (k a b s) : exec (.xadd32 k a b) s = execXadd32 k a b s := rfl
theorem exec_fetchadd (k d a b w s) : exec (.fetchadd k d a b w) s = execFetchadd k d a b w s := rfl
theorem exec_swap (k d a b w s) : exec (.swap k d a b w) s = execSwap k d a b w s := rfl
theorem exec_cas (k d a b w s) : exec (.cas k d a b w) s = execCas k d a b w s := rfl
theorem exec_fetchmin (k d a b w s) : exec (.fetchmin k d a b w) s = execFetchmin k d a b w s := rfl
theorem exec_fetchmax (k d a b w s) : exec (.fetchmax k d a b w) s = execFetchmax k d a b w s := rfl
theorem exec_ldacq (k d a c s) : exec (.ldacq k d a c) s = execLdacq k d a c s := rfl
theorem exec_strel (k d a c s) : exec (.strel k d a c) s = execStrel k d a c s := rfl
theorem exec_fence (k c s) : exec (.fence k c) s = execFence k c s := rfl
theorem exec_cpy (k a b s) : exec (.cpy k a b) s = execCpy k a b s := rfl
theorem exec_cpysum (k d a b s) : exec (.cpysum k d a b) s = execCpysum k d a b s := rfl
theorem exec_coll (k d a b s) : exec (.coll k d a b) s = execColl k d a b s := rfl
theorem exec_pref (k a b s) : exec (.pref k a b) s = execPref k a b s := rfl
theorem exec_fbind (k d a s) : exec (.fbind k d a) s = execFbind k d a s := rfl
theorem exec_funbind (k d s) : exec (.funbind k d) s = execFunbind k d s := rfl
theorem exec_fflush (k d s) : exec (.fflush k d) s = execFflush k d s := rfl
theorem exec_fstat (k d a s) : exec (.fstat k d a) s = execFstat k d a s := rfl
theorem exec_mmaW0 (k d a b s) : exec (.mmaW0 k d a b) s = execMmaW0 k d a b s := rfl
theorem exec_mmaW1 (k d a b s) : exec (.mmaW1 k d a b) s = execMmaW1 k d a b s := rfl
theorem exec_mmasW0 (k d a b s) : exec (.mmasW0 k d a b) s = execMmasW0 k d a b s := rfl
theorem exec_mmasW1 (k d a b s) : exec (.mmasW1 k d a b) s = execMmasW1 k d a b s := rfl
theorem exec_wldW0 (k a b s) : exec (.wldW0 k a b) s = execWldW0 k a b s := rfl
theorem exec_wldW1 (k a b s) : exec (.wldW1 k a b) s = execWldW1 k a b s := rfl
theorem exec_scl (k a s) : exec (.scl k a) s = execScl k a s := rfl
theorem exec_acol (k d a b s) : exec (.acol k d a b) s = execAcol k d a b s := rfl
theorem exec_azero (k d a s) : exec (.azero k d a) s = execAzero k d a s := rfl
theorem exec_anorm (k d a s) : exec (.anorm k d a) s = execAnorm k d a s := rfl
theorem exec_awrite (k d a b s) : exec (.awrite k d a b) s = execAwrite k d a b s := rfl
theorem exec_awriteAdd (k d a b s) : exec (.awriteAdd k d a b) s = execAwriteAdd k d a b s := rfl
theorem exec_aexp (k d a s) : exec (.aexp k d a) s = execAexp k d a s := rfl
theorem exec_astat (k d a s) : exec (.astat k d a) s = execAstat k d a s := rfl
theorem exec_aread (k d a b dst s) : exec (.aread k d a b dst) s = execAread k d a b dst s := rfl
theorem exec_rft (k a b s) : exec (.rft k a b) s = execRft k a b s := rfl
theorem exec_kill (k a b s) : exec (.kill k a b) s = execKill k a b s := rfl
theorem exec_snapr (k d a b s) : exec (.snapr k d a b) s = execSnapr k d a b s := rfl
theorem exec_snapw (k d a b s) : exec (.snapw k d a b) s = execSnapw k d a b s := rfl
theorem exec_ctxsv (k d a b s) : exec (.ctxsv k d a b) s = execCtxsv k d a b s := rfl
theorem exec_ctxld (k d a b s) : exec (.ctxld k d a b) s = execCtxld k d a b s := rfl
theorem exec_ttinv (k a b s) : exec (.ttinv k a b) s = execTtinv k a b s := rfl
theorem exec_halt (k s) : exec (.halt k) s = execHalt k s := rfl
theorem exec_literalExtension (payload s) : exec (.literalExtension payload) s = execLiteralExtension payload s := rfl
theorem exec_preempt (core slot s) : exec (.preempt core slot) s = execPreempt core slot s := rfl
theorem exec_fixedLatencyResultLands (who s) : exec (.fixedLatencyResultLands who) s = execFixedLatencyResultLands who s := rfl
theorem exec_interlockedResultLands (who n s) : exec (.interlockedResultLands who n) s = execInterlockedResultLands who n s := rfl
theorem exec_timedLoadLands (who s) : exec (.timedLoadLands who) s = execTimedLoadLands who s := rfl
theorem exec_timedLoadDataArrival (who s) : exec (.timedLoadDataArrival who) s = execTimedLoadDataArrival who s := rfl
theorem exec_activationRetire (run who s) : exec (.activationRetire run who) s = execActivationRetire run who s := rfl
theorem exec_heldEffectRelease (run who s) : exec (.heldEffectRelease run who) s = execHeldEffectRelease run who s := rfl
theorem exec_instantAdmission (run s) : exec (.instantAdmission run) s = execInstantAdmission run s := rfl
theorem exec_instantComplete (run inst s) : exec (.instantComplete run inst) s = execInstantComplete run inst s := rfl
theorem exec_distributorPlacement (die s) : exec (.distributorPlacement die) s = execDistributorPlacement die s := rfl
theorem exec_nonSpeculativeWaitExpiry (die s) : exec (.nonSpeculativeWaitExpiry die) s = execNonSpeculativeWaitExpiry die s := rfl
theorem exec_preemptionLands (core slot s) : exec (.preemptionLands core slot) s = execPreemptionLands core slot s := rfl
theorem exec_forcedPreemptionPoint (core slot s) : exec (.forcedPreemptionPoint core slot) s = execForcedPreemptionPoint core slot s := rfl
theorem exec_corePowerGate (core s) : exec (.corePowerGate core) s = execCorePowerGate core s := rfl
theorem exec_coreWakeComplete (core s) : exec (.coreWakeComplete core) s = execCoreWakeComplete core s := rfl
theorem exec_scratchBankCleared (core bank s) : exec (.scratchBankCleared core bank) s = execScratchBankCleared core bank s := rfl
theorem exec_stewardWake (core s) : exec (.stewardWake core) s = execStewardWake core s := rfl
theorem exec_cellRequestArrival (n s) : exec (.cellRequestArrival n) s = execCellRequestArrival n s := rfl
theorem exec_repairNotice (n s) : exec (.repairNotice n) s = execRepairNotice n s := rfl
theorem exec_cellFold (n s) : exec (.cellFold n) s = execCellFold n s := rfl
theorem exec_atomrValueDelivery (run who s) : exec (.atomrValueDelivery run who) s = execAtomrValueDelivery run who s := rfl
theorem exec_liveStorePerformed (n s) : exec (.liveStorePerformed n) s = execLiveStorePerformed n s := rfl
theorem exec_feedFill (who e s) : exec (.feedFill who e) s = execFeedFill who e s := rfl
theorem exec_feedDrain (who e s) : exec (.feedDrain who e) s = execFeedDrain who e s := rfl
theorem exec_copyEngineElement (die n s) : exec (.copyEngineElement die n) s = execCopyEngineElement die n s := rfl
theorem exec_arrayRowEntry (core s) : exec (.arrayRowEntry core) s = execArrayRowEntry core s := rfl
theorem exec_weightEntry (core s) : exec (.weightEntry core) s = execWeightEntry core s := rfl
theorem exec_bankReady (core s) : exec (.bankReady core) s = execBankReady core s := rfl
theorem exec_busyBitClear (core tile row s) : exec (.busyBitClear core tile row) s = execBusyBitClear core tile row s := rfl
theorem exec_start (queue s) : exec (.start queue) s = execStart queue s := rfl
theorem exec_grant (queue s) : exec (.grant queue) s = execGrant queue s := rfl
theorem exec_fencePacket (queue s) : exec (.fencePacket queue) s = execFencePacket queue s := rfl
theorem exec_signal (queue s) : exec (.signal queue) s = execSignal queue s := rfl
theorem exec_stop (queue s) : exec (.stop queue) s = execStop queue s := rfl
theorem exec_marker (queue s) : exec (.marker queue) s = execMarker queue s := rfl
theorem exec_remotePush (device tag handle packet s) : exec (.remotePush device tag handle packet) s = execRemotePush device tag handle packet s := rfl
theorem exec_remotePushOutcome (n code s) : exec (.remotePushOutcome n code) s = execRemotePushOutcome n code s := rfl
theorem exec_queueResidencyChange (queue resident s) : exec (.queueResidencyChange queue resident) s = execQueueResidencyChange queue resident s := rfl
theorem exec_imageLoad (req image s) : exec (.imageLoad req image) s = execImageLoad req image s := rfl
theorem exec_firmwareImageLoad (req fw s) : exec (.firmwareImageLoad req fw) s = execFirmwareImageLoad req fw s := rfl
theorem exec_queuePush (req handle packet s) : exec (.queuePush req handle packet) s = execQueuePush req handle packet s := rfl
theorem exec_queueCreate (req queue priority capacity s) : exec (.queueCreate req queue priority capacity) s = execQueueCreate req queue priority capacity s := rfl
theorem exec_queueDestroy (req handle s) : exec (.queueDestroy req handle) s = execQueueDestroy req handle s := rfl
theorem exec_map (req run tensor tile entry s) : exec (.map req run tensor tile entry) s = execMap req run tensor tile entry s := rfl
theorem exec_memRead (req run ptr len s) : exec (.memRead req run ptr len) s = execMemRead req run ptr len s := rfl
theorem exec_memWrite (req run ptr bytes s) : exec (.memWrite req run ptr bytes) s = execMemWrite req run ptr bytes s := rfl
theorem exec_keySet (req slot key0 key1 s) : exec (.keySet req slot key0 key1) s = execKeySet req slot key0 key1 s := rfl
theorem exec_collectiveMatch (n peer s) : exec (.collectiveMatch n peer) s = execCollectiveMatch n peer s := rfl
theorem exec_collectiveComplete (n s) : exec (.collectiveComplete n) s = execCollectiveComplete n s := rfl
theorem exec_collectiveFailure (n cause code s) : exec (.collectiveFailure n cause code) s = execCollectiveFailure n cause code s := rfl
theorem exec_thermalExclusion (core temp s) : exec (.thermalExclusion core temp) s = execThermalExclusion core temp s := rfl
theorem exec_thermalReadmission (core temp s) : exec (.thermalReadmission core temp) s = execThermalReadmission core temp s := rfl
theorem exec_woushFlitResend (port s) : exec (.woushFlitResend port) s = execWoushFlitResend port s := rfl
theorem exec_woushPortDown (port s) : exec (.woushPortDown port) s = execWoushPortDown port s := rfl
theorem exec_softErrorCorrection (addr s) : exec (.softErrorCorrection addr) s = execSoftErrorCorrection addr s := rfl
theorem exec_scrubUncorrectable (addr s) : exec (.scrubUncorrectable addr) s = execScrubUncorrectable addr s := rfl
theorem exec_warmReset (req device s) : exec (.warmReset req device) s = execWarmReset req device s := rfl
theorem exec_coldReset (req device s) : exec (.coldReset req device) s = execColdReset req device s := rfl
theorem exec_attest (req nonce s) : exec (.attest req nonce) s = execAttest req nonce s := rfl
theorem exec_resync (req s) : exec (.resync req) s = execResync req s := rfl
theorem exec_loopPassEnd (s) : exec .loopPassEnd s = execLoopPassEnd s := rfl
theorem exec_handlerActivationStart (s) : exec .handlerActivationStart s = execHandlerActivationStart s := rfl
theorem exec_powerOnBoot (s) : exec .powerOnBoot s = execPowerOnBoot s := rfl
theorem exec_serviceStartTimeout (s) : exec .serviceStartTimeout s = execServiceStartTimeout s := rfl
theorem exec_seamFlitResend (s) : exec .seamFlitResend s = execSeamFlitResend s := rfl
theorem exec_budgetPeriod (s) : exec .budgetPeriod s = execBudgetPeriod s := rfl

end Sys2Proof.Machine
end

