-- ==== Sys2Proof/Laws/State.lean ====
section
/-! SUPPORT. One lemma for each field of each shared update of the state (true by definition), so that no proof unfolds a
record update. -/
namespace Sys2Proof.Machine

/-! ### pushResult -/

@[simp] theorem pushResult_dev (s : State) (d : Dest) (x : Vec) (lat : Nat) (t : Tag) : (pushResult s d x lat t).dev = s.dev := rfl
@[simp] theorem pushResult_act (s : State) (d : Dest) (x : Vec) (lat : Nat) (t : Tag) : (pushResult s d x lat t).act = { s.act with inflight := s.act.inflight ++ [{ dest := d, val := x, tag := t, due := s.act.adv + lat, issued := s.act.adv, stale := tagIn s.iss.freed t, timed := false, arrived := true, memx := none }] } := rfl
@[simp] theorem pushResult_dev0 (s : State) (d : Dest) (x : Vec) (lat : Nat) (t : Tag) : (pushResult s d x lat t).dev0 = s.dev0 := rfl
@[simp] theorem pushResult_act0 (s : State) (d : Dest) (x : Vec) (lat : Nat) (t : Tag) : (pushResult s d x lat t).act0 = s.act0 := rfl
@[simp] theorem pushResult_iss (s : State) (d : Dest) (x : Vec) (lat : Nat) (t : Tag) : (pushResult s d x lat t).iss = s.iss := rfl
@[simp] theorem pushResult_agenda (s : State) (d : Dest) (x : Vec) (lat : Nat) (t : Tag) : (pushResult s d x lat t).agenda = s.agenda := rfl

/-! ### resultS -/

@[simp] theorem resultS_dev (s : State) (r : SReg) (x : Word) (lat : Nat) (t : Tag) : (resultS s r x lat t).dev = s.dev := rfl
@[simp] theorem resultS_act (s : State) (r : SReg) (x : Word) (lat : Nat) (t : Tag) : (resultS s r x lat t).act = (pushResult s (.s r) (vecOfWord x) lat t).act := rfl
@[simp] theorem resultS_dev0 (s : State) (r : SReg) (x : Word) (lat : Nat) (t : Tag) : (resultS s r x lat t).dev0 = s.dev0 := rfl
@[simp] theorem resultS_act0 (s : State) (r : SReg) (x : Word) (lat : Nat) (t : Tag) : (resultS s r x lat t).act0 = s.act0 := rfl
@[simp] theorem resultS_iss (s : State) (r : SReg) (x : Word) (lat : Nat) (t : Tag) : (resultS s r x lat t).iss = s.iss := rfl
@[simp] theorem resultS_agenda (s : State) (r : SReg) (x : Word) (lat : Nat) (t : Tag) : (resultS s r x lat t).agenda = s.agenda := rfl

/-! ### resultV -/

@[simp] theorem resultV_dev (s : State) (r : VReg) (x : Vec) (lat : Nat) (t : Tag) : (resultV s r x lat t).dev = s.dev := rfl
@[simp] theorem resultV_act (s : State) (r : VReg) (x : Vec) (lat : Nat) (t : Tag) : (resultV s r x lat t).act = (pushResult s (.v r) x lat t).act := rfl
@[simp] theorem resultV_dev0 (s : State) (r : VReg) (x : Vec) (lat : Nat) (t : Tag) : (resultV s r x lat t).dev0 = s.dev0 := rfl
@[simp] theorem resultV_act0 (s : State) (r : VReg) (x : Vec) (lat : Nat) (t : Tag) : (resultV s r x lat t).act0 = s.act0 := rfl
@[simp] theorem resultV_iss (s : State) (r : VReg) (x : Vec) (lat : Nat) (t : Tag) : (resultV s r x lat t).iss = s.iss := rfl
@[simp] theorem resultV_agenda (s : State) (r : VReg) (x : Vec) (lat : Nat) (t : Tag) : (resultV s r x lat t).agenda = s.agenda := rfl

/-! ### awaitResult -/

@[simp] theorem awaitResult_dev (s : State) (d : Dest) (x : Vec) (t : Tag) (w : Awaiting) : (awaitResult s d x t w).dev = s.dev := rfl
@[simp] theorem awaitResult_dev0 (s : State) (d : Dest) (x : Vec) (t : Tag) (w : Awaiting) : (awaitResult s d x t w).dev0 = s.dev0 := rfl
@[simp] theorem awaitResult_act0 (s : State) (d : Dest) (x : Vec) (t : Tag) (w : Awaiting) : (awaitResult s d x t w).act0 = s.act0 := rfl
@[simp] theorem awaitResult_iss (s : State) (d : Dest) (x : Vec) (t : Tag) (w : Awaiting) : (awaitResult s d x t w).iss = s.iss := rfl
@[simp] theorem awaitResult_agenda (s : State) (d : Dest) (x : Vec) (t : Tag) (w : Awaiting) : (awaitResult s d x t w).agenda = s.agenda := rfl

/-! ### awaitFailed -/

@[simp] theorem awaitFailed_dev (s : State) (d : Dest) (x : Vec) (t : Tag) (r : TrapRec) : (awaitFailed s d x t r).dev = s.dev := rfl
@[simp] theorem awaitFailed_dev0 (s : State) (d : Dest) (x : Vec) (t : Tag) (r : TrapRec) : (awaitFailed s d x t r).dev0 = s.dev0 := rfl
@[simp] theorem awaitFailed_act0 (s : State) (d : Dest) (x : Vec) (t : Tag) (r : TrapRec) : (awaitFailed s d x t r).act0 = s.act0 := rfl
@[simp] theorem awaitFailed_iss (s : State) (d : Dest) (x : Vec) (t : Tag) (r : TrapRec) : (awaitFailed s d x t r).iss = s.iss := rfl
@[simp] theorem awaitFailed_agenda (s : State) (d : Dest) (x : Vec) (t : Tag) (r : TrapRec) : (awaitFailed s d x t r).agenda = s.agenda := rfl

/-! ### bumpSeq -/

@[simp] theorem bumpSeq_dev (s : State) : (bumpSeq s).dev = s.dev := rfl
@[simp] theorem bumpSeq_act (s : State) : (bumpSeq s).act = { s.act with seq := s.act.seq + 1 } := rfl
@[simp] theorem bumpSeq_dev0 (s : State) : (bumpSeq s).dev0 = s.dev0 := rfl
@[simp] theorem bumpSeq_act0 (s : State) : (bumpSeq s).act0 = s.act0 := rfl
@[simp] theorem bumpSeq_iss (s : State) : (bumpSeq s).iss = s.iss := rfl
@[simp] theorem bumpSeq_agenda (s : State) : (bumpSeq s).agenda = s.agenda := rfl

/-! ### stall -/

@[simp] theorem stall_dev (s : State) : (stall s).dev = s.dev0 := rfl
@[simp] theorem stall_act (s : State) : (stall s).act = s.act0 := rfl
@[simp] theorem stall_dev0 (s : State) : (stall s).dev0 = s.dev0 := rfl
@[simp] theorem stall_act0 (s : State) : (stall s).act0 = s.act0 := rfl
@[simp] theorem stall_iss (s : State) : (stall s).iss = { s.iss with status := .stalled } := rfl
@[simp] theorem stall_agenda (s : State) : (stall s).agenda = s.agenda := rfl

/-! ### stallSwitch -/

@[simp] theorem stallSwitch_dev (s : State) : (stallSwitch s).dev = s.dev0 := rfl
@[simp] theorem stallSwitch_act (s : State) : (stallSwitch s).act = s.act0 := rfl
@[simp] theorem stallSwitch_dev0 (s : State) : (stallSwitch s).dev0 = s.dev0 := rfl
@[simp] theorem stallSwitch_act0 (s : State) : (stallSwitch s).act0 = s.act0 := rfl
@[simp] theorem stallSwitch_iss (s : State) : (stallSwitch s).iss = { s.iss with status := .switched } := rfl
@[simp] theorem stallSwitch_agenda (s : State) : (stallSwitch s).agenda = s.agenda := rfl

/-! ### setCtl -/

@[simp] theorem setCtl_dev (s : State) (c : Ctl) : (setCtl s c).dev = s.dev := rfl
@[simp] theorem setCtl_act (s : State) (c : Ctl) : (setCtl s c).act = s.act := rfl
@[simp] theorem setCtl_dev0 (s : State) (c : Ctl) : (setCtl s c).dev0 = s.dev0 := rfl
@[simp] theorem setCtl_act0 (s : State) (c : Ctl) : (setCtl s c).act0 = s.act0 := rfl
@[simp] theorem setCtl_iss (s : State) (c : Ctl) : (setCtl s c).iss = { s.iss with ctl := c } := rfl
@[simp] theorem setCtl_agenda (s : State) (c : Ctl) : (setCtl s c).agenda = s.agenda := rfl

/-! ### addFlags -/

@[simp] theorem addFlags_dev (s : State) (f : Flags) : (addFlags s f).dev = s.dev := rfl
@[simp] theorem addFlags_act (s : State) (f : Flags) : (addFlags s f).act = s.act := rfl
@[simp] theorem addFlags_dev0 (s : State) (f : Flags) : (addFlags s f).dev0 = s.dev0 := rfl
@[simp] theorem addFlags_act0 (s : State) (f : Flags) : (addFlags s f).act0 = s.act0 := rfl
@[simp] theorem addFlags_iss (s : State) (f : Flags) : (addFlags s f).iss = { s.iss with flags := Nat.lor s.iss.flags (flagsNat f) } := rfl
@[simp] theorem addFlags_agenda (s : State) (f : Flags) : (addFlags s f).agenda = s.agenda := rfl

/-! ### before -/

@[simp] theorem before_dev (s : State) : (before s).dev = s.dev0 := rfl
@[simp] theorem before_act (s : State) : (before s).act = s.act0 := rfl
@[simp] theorem before_dev0 (s : State) : (before s).dev0 = s.dev0 := rfl
@[simp] theorem before_act0 (s : State) : (before s).act0 = s.act0 := rfl
@[simp] theorem before_iss (s : State) : (before s).iss = s.iss := rfl
@[simp] theorem before_agenda (s : State) : (before s).agenda = s.agenda := rfl

/-! ### tick -/

/-- The decision of a push adds to a ring, to the accesses on their way or to the pushes to other devices, and does no more (R221). -/
theorem decidePush_frame (s : State) (w : LaunchPush) : ∃ q l r,
    decidePush s w = { s with dev := { s.dev with queues := q, liveq := l, remote := r } } := by
  unfold decidePush localPush putQueue sendLive
  (repeat' split) <;> exact ⟨_, _, _, rfl⟩

theorem foldl_decidePush_frame : ∀ (ws : List LaunchPush) (s : State), ∃ q l r,
    ws.foldl decidePush s = { s with dev := { s.dev with queues := q, liveq := l, remote := r } }
  | [], _ => ⟨_, _, _, rfl⟩
  | w :: ws, s => by
    obtain ⟨q, l, r, h⟩ := decidePush_frame s w
    obtain ⟨q1, l1, r1, h1⟩ := foldl_decidePush_frame ws (decidePush s w)
    exact ⟨q1, l1, r1, by rw [List.foldl_cons, h1, h]⟩

/-- All that the passing of core cycles does. -/
theorem tick_frame (n : Nat) (s : State) : ∃ q l r, tick n s =
    { s with dev := { s.dev with queues := q, liveq := l, remote := r, pushes := [], cycle := s.dev.cycle + n } } := by
  obtain ⟨q, l, r, h⟩ := foldl_decidePush_frame s.dev.pushes { s with dev := { s.dev with pushes := [] } }
  exact ⟨q, l, r, by simp only [tick, decidePushes, h]⟩

/-- With no push at the agent only the cycle changes. -/
theorem tick_of_none {s : State} (n : Nat) (h : s.dev.pushes = []) :
    tick n s = { s with dev := { s.dev with cycle := s.dev.cycle + n } } := by
  have e : decidePushes s = s := by
    unfold decidePushes
    rw [h]
    change ({ s with dev := { s.dev with pushes := [] } } : State) = s
    rw [← h]
  rw [tick, e]

@[simp] theorem tick_cycle (n : Nat) (s : State) : (tick n s).dev.cycle = s.dev.cycle + n := by
  obtain ⟨_, _, _, h⟩ := tick_frame n s; rw [h]
@[simp] theorem tick_mem (n : Nat) (s : State) : (tick n s).dev.mem = s.dev.mem := by
  obtain ⟨_, _, _, h⟩ := tick_frame n s; rw [h]
@[simp] theorem tick_pushes (n : Nat) (s : State) : (tick n s).dev.pushes = [] := by
  obtain ⟨_, _, _, h⟩ := tick_frame n s; rw [h]
@[simp] theorem tick_act (n : Nat) (s : State) : (tick n s).act = s.act := by
  obtain ⟨_, _, _, h⟩ := tick_frame n s; rw [h]
@[simp] theorem tick_dev0 (n : Nat) (s : State) : (tick n s).dev0 = s.dev0 := by
  obtain ⟨_, _, _, h⟩ := tick_frame n s; rw [h]
@[simp] theorem tick_act0 (n : Nat) (s : State) : (tick n s).act0 = s.act0 := by
  obtain ⟨_, _, _, h⟩ := tick_frame n s; rw [h]
@[simp] theorem tick_iss (n : Nat) (s : State) : (tick n s).iss = s.iss := by
  obtain ⟨_, _, _, h⟩ := tick_frame n s; rw [h]
@[simp] theorem tick_agenda (n : Nat) (s : State) : (tick n s).agenda = s.agenda := by
  obtain ⟨_, _, _, h⟩ := tick_frame n s; rw [h]

/-! ### beginIssue -/

@[simp] theorem beginIssue_dev (s : State) : (beginIssue s).dev = s.dev := rfl
@[simp] theorem beginIssue_act (s : State) : (beginIssue s).act = s.act := rfl
@[simp] theorem beginIssue_dev0 (s : State) : (beginIssue s).dev0 = s.dev := rfl
@[simp] theorem beginIssue_act0 (s : State) : (beginIssue s).act0 = s.act := rfl
@[simp] theorem beginIssue_iss (s : State) : (beginIssue s).iss = Iss.idle := rfl
@[simp] theorem beginIssue_agenda (s : State) : (beginIssue s).agenda = s.agenda := rfl

/-! ### writeV -/

@[simp] theorem writeV_key (a : Act) (r : VReg) (x : Vec) (t : Tag) : (writeV a r x t).key = a.key := rfl
@[simp] theorem writeV_stamp (a : Act) (r : VReg) (x : Vec) (t : Tag) : (writeV a r x t).stamp = a.stamp := rfl
@[simp] theorem writeV_task (a : Act) (r : VReg) (x : Vec) (t : Tag) : (writeV a r x t).task = a.task := rfl
@[simp] theorem writeV_status (a : Act) (r : VReg) (x : Vec) (t : Tag) : (writeV a r x t).status = a.status := rfl
@[simp] theorem writeV_place (a : Act) (r : VReg) (x : Vec) (t : Tag) : (writeV a r x t).place = a.place := rfl
@[simp] theorem writeV_s (a : Act) (r : VReg) (x : Vec) (t : Tag) : (writeV a r x t).s = a.s := rfl
@[simp] theorem writeV_sTag (a : Act) (r : VReg) (x : Vec) (t : Tag) : (writeV a r x t).sTag = a.sTag := rfl
@[simp] theorem writeV_v (a : Act) (r : VReg) (x : Vec) (t : Tag) : (writeV a r x t).v = a.v.set r.val x := rfl
@[simp] theorem writeV_vTag (a : Act) (r : VReg) (x : Vec) (t : Tag) : (writeV a r x t).vTag = a.vTag.set r.val t := rfl
@[simp] theorem writeV_eTag (a : Act) (r : VReg) (x : Vec) (t : Tag) : (writeV a r x t).eTag = a.eTag := rfl
@[simp] theorem writeV_clocks (a : Act) (r : VReg) (x : Vec) (t : Tag) : (writeV a r x t).clocks = a.clocks := rfl
@[simp] theorem writeV_fpc (a : Act) (r : VReg) (x : Vec) (t : Tag) : (writeV a r x t).fpc = a.fpc := rfl
@[simp] theorem writeV_vpart (a : Act) (r : VReg) (x : Vec) (t : Tag) : (writeV a r x t).vpart = a.vpart := rfl
@[simp] theorem writeV_loops (a : Act) (r : VReg) (x : Vec) (t : Tag) : (writeV a r x t).loops = a.loops := rfl
@[simp] theorem writeV_seq (a : Act) (r : VReg) (x : Vec) (t : Tag) : (writeV a r x t).seq = a.seq := rfl
@[simp] theorem writeV_pc (a : Act) (r : VReg) (x : Vec) (t : Tag) : (writeV a r x t).pc = a.pc := rfl
@[simp] theorem writeV_adv (a : Act) (r : VReg) (x : Vec) (t : Tag) : (writeV a r x t).adv = a.adv := rfl
@[simp] theorem writeV_inflight (a : Act) (r : VReg) (x : Vec) (t : Tag) : (writeV a r x t).inflight = a.inflight := rfl
@[simp] theorem writeV_pend (a : Act) (r : VReg) (x : Vec) (t : Tag) : (writeV a r x t).pend = a.pend := rfl
@[simp] theorem writeV_snapshot (a : Act) (r : VReg) (x : Vec) (t : Tag) : (writeV a r x t).snapshot = a.snapshot := rfl
@[simp] theorem writeV_trap (a : Act) (r : VReg) (x : Vec) (t : Tag) : (writeV a r x t).trap = a.trap := rfl
@[simp] theorem writeV_frozen (a : Act) (r : VReg) (x : Vec) (t : Tag) : (writeV a r x t).frozen = a.frozen := rfl
@[simp] theorem writeV_deferred (a : Act) (r : VReg) (x : Vec) (t : Tag) : (writeV a r x t).deferred = a.deferred := rfl
@[simp] theorem writeV_deferredHeld (a : Act) (r : VReg) (x : Vec) (t : Tag) : (writeV a r x t).deferredHeld = a.deferredHeld := rfl
@[simp] theorem writeV_feeds (a : Act) (r : VReg) (x : Vec) (t : Tag) : (writeV a r x t).feeds = a.feeds := rfl
@[simp] theorem writeV_held (a : Act) (r : VReg) (x : Vec) (t : Tag) : (writeV a r x t).held = a.held := rfl
@[simp] theorem writeV_incarnation (a : Act) (r : VReg) (x : Vec) (t : Tag) : (writeV a r x t).incarnation = a.incarnation := rfl
@[simp] theorem writeV_weight (a : Act) (r : VReg) (x : Vec) (t : Tag) : (writeV a r x t).weight = a.weight := rfl
@[simp] theorem writeV_handle (a : Act) (r : VReg) (x : Vec) (t : Tag) : (writeV a r x t).handle = a.handle := rfl
@[simp] theorem writeV_serves (a : Act) (r : VReg) (x : Vec) (t : Tag) : (writeV a r x t).serves = a.serves := rfl
@[simp] theorem writeV_hold (a : Act) (r : VReg) (x : Vec) (t : Tag) : (writeV a r x t).hold = a.hold := rfl

/-! ### writeS -/

@[simp] theorem writeS_key (a : Act) (r : SReg) (x : Word) (t : Tag) : (writeS a r x t).key = a.key := by
  unfold writeS; split <;> rfl
@[simp] theorem writeS_stamp (a : Act) (r : SReg) (x : Word) (t : Tag) : (writeS a r x t).stamp = a.stamp := by
  unfold writeS; split <;> rfl
@[simp] theorem writeS_task (a : Act) (r : SReg) (x : Word) (t : Tag) : (writeS a r x t).task = a.task := by
  unfold writeS; split <;> rfl
@[simp] theorem writeS_status (a : Act) (r : SReg) (x : Word) (t : Tag) : (writeS a r x t).status = a.status := by
  unfold writeS; split <;> rfl
@[simp] theorem writeS_place (a : Act) (r : SReg) (x : Word) (t : Tag) : (writeS a r x t).place = a.place := by
  unfold writeS; split <;> rfl
@[simp] theorem writeS_v (a : Act) (r : SReg) (x : Word) (t : Tag) : (writeS a r x t).v = a.v := by
  unfold writeS; split <;> rfl
@[simp] theorem writeS_vTag (a : Act) (r : SReg) (x : Word) (t : Tag) : (writeS a r x t).vTag = a.vTag := by
  unfold writeS; split <;> rfl
@[simp] theorem writeS_eTag (a : Act) (r : SReg) (x : Word) (t : Tag) : (writeS a r x t).eTag = a.eTag := by
  unfold writeS; split <;> rfl
@[simp] theorem writeS_clocks (a : Act) (r : SReg) (x : Word) (t : Tag) : (writeS a r x t).clocks = a.clocks := by
  unfold writeS; split <;> rfl
@[simp] theorem writeS_fpc (a : Act) (r : SReg) (x : Word) (t : Tag) : (writeS a r x t).fpc = a.fpc := by
  unfold writeS; split <;> rfl
@[simp] theorem writeS_vpart (a : Act) (r : SReg) (x : Word) (t : Tag) : (writeS a r x t).vpart = a.vpart := by
  unfold writeS; split <;> rfl
@[simp] theorem writeS_loops (a : Act) (r : SReg) (x : Word) (t : Tag) : (writeS a r x t).loops = a.loops := by
  unfold writeS; split <;> rfl
@[simp] theorem writeS_seq (a : Act) (r : SReg) (x : Word) (t : Tag) : (writeS a r x t).seq = a.seq := by
  unfold writeS; split <;> rfl
@[simp] theorem writeS_pc (a : Act) (r : SReg) (x : Word) (t : Tag) : (writeS a r x t).pc = a.pc := by
  unfold writeS; split <;> rfl
@[simp] theorem writeS_adv (a : Act) (r : SReg) (x : Word) (t : Tag) : (writeS a r x t).adv = a.adv := by
  unfold writeS; split <;> rfl
@[simp] theorem writeS_inflight (a : Act) (r : SReg) (x : Word) (t : Tag) : (writeS a r x t).inflight = a.inflight := by
  unfold writeS; split <;> rfl
@[simp] theorem writeS_pend (a : Act) (r : SReg) (x : Word) (t : Tag) : (writeS a r x t).pend = a.pend := by
  unfold writeS; split <;> rfl
@[simp] theorem writeS_snapshot (a : Act) (r : SReg) (x : Word) (t : Tag) : (writeS a r x t).snapshot = a.snapshot := by
  unfold writeS; split <;> rfl
@[simp] theorem writeS_trap (a : Act) (r : SReg) (x : Word) (t : Tag) : (writeS a r x t).trap = a.trap := by
  unfold writeS; split <;> rfl
@[simp] theorem writeS_frozen (a : Act) (r : SReg) (x : Word) (t : Tag) : (writeS a r x t).frozen = a.frozen := by
  unfold writeS; split <;> rfl
@[simp] theorem writeS_deferred (a : Act) (r : SReg) (x : Word) (t : Tag) : (writeS a r x t).deferred = a.deferred := by
  unfold writeS; split <;> rfl
@[simp] theorem writeS_deferredHeld (a : Act) (r : SReg) (x : Word) (t : Tag) : (writeS a r x t).deferredHeld = a.deferredHeld := by
  unfold writeS; split <;> rfl
@[simp] theorem writeS_feeds (a : Act) (r : SReg) (x : Word) (t : Tag) : (writeS a r x t).feeds = a.feeds := by
  unfold writeS; split <;> rfl
@[simp] theorem writeS_held (a : Act) (r : SReg) (x : Word) (t : Tag) : (writeS a r x t).held = a.held := by
  unfold writeS; split <;> rfl
@[simp] theorem writeS_incarnation (a : Act) (r : SReg) (x : Word) (t : Tag) : (writeS a r x t).incarnation = a.incarnation := by
  unfold writeS; split <;> rfl
@[simp] theorem writeS_weight (a : Act) (r : SReg) (x : Word) (t : Tag) : (writeS a r x t).weight = a.weight := by
  unfold writeS; split <;> rfl
@[simp] theorem writeS_handle (a : Act) (r : SReg) (x : Word) (t : Tag) : (writeS a r x t).handle = a.handle := by
  unfold writeS; split <;> rfl
@[simp] theorem writeS_serves (a : Act) (r : SReg) (x : Word) (t : Tag) : (writeS a r x t).serves = a.serves := by
  unfold writeS; split <;> rfl
@[simp] theorem writeS_hold (a : Act) (r : SReg) (x : Word) (t : Tag) : (writeS a r x t).hold = a.hold := by
  unfold writeS; split <;> rfl

/-! ### setDestTag -/

@[simp] theorem setDestTag_key (a : Act) (d : Dest) (t : Tag) : (setDestTag a d t).key = a.key := by
  unfold setDestTag; split <;> (try split) <;> rfl
@[simp] theorem setDestTag_stamp (a : Act) (d : Dest) (t : Tag) : (setDestTag a d t).stamp = a.stamp := by
  unfold setDestTag; split <;> (try split) <;> rfl
@[simp] theorem setDestTag_task (a : Act) (d : Dest) (t : Tag) : (setDestTag a d t).task = a.task := by
  unfold setDestTag; split <;> (try split) <;> rfl
@[simp] theorem setDestTag_status (a : Act) (d : Dest) (t : Tag) : (setDestTag a d t).status = a.status := by
  unfold setDestTag; split <;> (try split) <;> rfl
@[simp] theorem setDestTag_place (a : Act) (d : Dest) (t : Tag) : (setDestTag a d t).place = a.place := by
  unfold setDestTag; split <;> (try split) <;> rfl
@[simp] theorem setDestTag_s (a : Act) (d : Dest) (t : Tag) : (setDestTag a d t).s = a.s := by
  unfold setDestTag; split <;> (try split) <;> rfl
@[simp] theorem setDestTag_v (a : Act) (d : Dest) (t : Tag) : (setDestTag a d t).v = a.v := by
  unfold setDestTag; split <;> (try split) <;> rfl
@[simp] theorem setDestTag_eTag (a : Act) (d : Dest) (t : Tag) : (setDestTag a d t).eTag = a.eTag := by
  unfold setDestTag; split <;> (try split) <;> rfl
@[simp] theorem setDestTag_clocks (a : Act) (d : Dest) (t : Tag) : (setDestTag a d t).clocks = a.clocks := by
  unfold setDestTag; split <;> (try split) <;> rfl
@[simp] theorem setDestTag_fpc (a : Act) (d : Dest) (t : Tag) : (setDestTag a d t).fpc = a.fpc := by
  unfold setDestTag; split <;> (try split) <;> rfl
@[simp] theorem setDestTag_vpart (a : Act) (d : Dest) (t : Tag) : (setDestTag a d t).vpart = a.vpart := by
  unfold setDestTag; split <;> (try split) <;> rfl
@[simp] theorem setDestTag_loops (a : Act) (d : Dest) (t : Tag) : (setDestTag a d t).loops = a.loops := by
  unfold setDestTag; split <;> (try split) <;> rfl
@[simp] theorem setDestTag_seq (a : Act) (d : Dest) (t : Tag) : (setDestTag a d t).seq = a.seq := by
  unfold setDestTag; split <;> (try split) <;> rfl
@[simp] theorem setDestTag_pc (a : Act) (d : Dest) (t : Tag) : (setDestTag a d t).pc = a.pc := by
  unfold setDestTag; split <;> (try split) <;> rfl
@[simp] theorem setDestTag_adv (a : Act) (d : Dest) (t : Tag) : (setDestTag a d t).adv = a.adv := by
  unfold setDestTag; split <;> (try split) <;> rfl
@[simp] theorem setDestTag_inflight (a : Act) (d : Dest) (t : Tag) : (setDestTag a d t).inflight = a.inflight := by
  unfold setDestTag; split <;> (try split) <;> rfl
@[simp] theorem setDestTag_pend (a : Act) (d : Dest) (t : Tag) : (setDestTag a d t).pend = a.pend := by
  unfold setDestTag; split <;> (try split) <;> rfl
@[simp] theorem setDestTag_snapshot (a : Act) (d : Dest) (t : Tag) : (setDestTag a d t).snapshot = a.snapshot := by
  unfold setDestTag; split <;> (try split) <;> rfl
@[simp] theorem setDestTag_trap (a : Act) (d : Dest) (t : Tag) : (setDestTag a d t).trap = a.trap := by
  unfold setDestTag; split <;> (try split) <;> rfl
@[simp] theorem setDestTag_frozen (a : Act) (d : Dest) (t : Tag) : (setDestTag a d t).frozen = a.frozen := by
  unfold setDestTag; split <;> (try split) <;> rfl
@[simp] theorem setDestTag_deferred (a : Act) (d : Dest) (t : Tag) : (setDestTag a d t).deferred = a.deferred := by
  unfold setDestTag; split <;> (try split) <;> rfl
@[simp] theorem setDestTag_deferredHeld (a : Act) (d : Dest) (t : Tag) : (setDestTag a d t).deferredHeld = a.deferredHeld := by
  unfold setDestTag; split <;> (try split) <;> rfl
@[simp] theorem setDestTag_feeds (a : Act) (d : Dest) (t : Tag) : (setDestTag a d t).feeds = a.feeds := by
  unfold setDestTag; split <;> (try split) <;> rfl
@[simp] theorem setDestTag_held (a : Act) (d : Dest) (t : Tag) : (setDestTag a d t).held = a.held := by
  unfold setDestTag; split <;> (try split) <;> rfl
@[simp] theorem setDestTag_incarnation (a : Act) (d : Dest) (t : Tag) : (setDestTag a d t).incarnation = a.incarnation := by
  unfold setDestTag; split <;> (try split) <;> rfl
@[simp] theorem setDestTag_weight (a : Act) (d : Dest) (t : Tag) : (setDestTag a d t).weight = a.weight := by
  unfold setDestTag; split <;> (try split) <;> rfl
@[simp] theorem setDestTag_handle (a : Act) (d : Dest) (t : Tag) : (setDestTag a d t).handle = a.handle := by
  unfold setDestTag; split <;> (try split) <;> rfl
@[simp] theorem setDestTag_serves (a : Act) (d : Dest) (t : Tag) : (setDestTag a d t).serves = a.serves := by
  unfold setDestTag; split <;> (try split) <;> rfl
@[simp] theorem setDestTag_hold (a : Act) (d : Dest) (t : Tag) : (setDestTag a d t).hold = a.hold := by
  unfold setDestTag; split <;> (try split) <;> rfl

/-! ### writeDest -/

@[simp] theorem writeDest_key (a : Act) (d : Dest) (x : Vec) (t : Tag) : (writeDest a d x t).key = a.key := by
  unfold writeDest; split <;> simp
@[simp] theorem writeDest_stamp (a : Act) (d : Dest) (x : Vec) (t : Tag) : (writeDest a d x t).stamp = a.stamp := by
  unfold writeDest; split <;> simp
@[simp] theorem writeDest_task (a : Act) (d : Dest) (x : Vec) (t : Tag) : (writeDest a d x t).task = a.task := by
  unfold writeDest; split <;> simp
@[simp] theorem writeDest_status (a : Act) (d : Dest) (x : Vec) (t : Tag) : (writeDest a d x t).status = a.status := by
  unfold writeDest; split <;> simp
@[simp] theorem writeDest_place (a : Act) (d : Dest) (x : Vec) (t : Tag) : (writeDest a d x t).place = a.place := by
  unfold writeDest; split <;> simp
@[simp] theorem writeDest_eTag (a : Act) (d : Dest) (x : Vec) (t : Tag) : (writeDest a d x t).eTag = a.eTag := by
  unfold writeDest; split <;> simp
@[simp] theorem writeDest_clocks (a : Act) (d : Dest) (x : Vec) (t : Tag) : (writeDest a d x t).clocks = a.clocks := by
  unfold writeDest; split <;> simp
@[simp] theorem writeDest_fpc (a : Act) (d : Dest) (x : Vec) (t : Tag) : (writeDest a d x t).fpc = a.fpc := by
  unfold writeDest; split <;> simp
@[simp] theorem writeDest_vpart (a : Act) (d : Dest) (x : Vec) (t : Tag) : (writeDest a d x t).vpart = a.vpart := by
  unfold writeDest; split <;> simp
@[simp] theorem writeDest_loops (a : Act) (d : Dest) (x : Vec) (t : Tag) : (writeDest a d x t).loops = a.loops := by
  unfold writeDest; split <;> simp
@[simp] theorem writeDest_seq (a : Act) (d : Dest) (x : Vec) (t : Tag) : (writeDest a d x t).seq = a.seq := by
  unfold writeDest; split <;> simp
@[simp] theorem writeDest_pc (a : Act) (d : Dest) (x : Vec) (t : Tag) : (writeDest a d x t).pc = a.pc := by
  unfold writeDest; split <;> simp
@[simp] theorem writeDest_adv (a : Act) (d : Dest) (x : Vec) (t : Tag) : (writeDest a d x t).adv = a.adv := by
  unfold writeDest; split <;> simp
@[simp] theorem writeDest_inflight (a : Act) (d : Dest) (x : Vec) (t : Tag) : (writeDest a d x t).inflight = a.inflight := by
  unfold writeDest; split <;> simp
@[simp] theorem writeDest_pend (a : Act) (d : Dest) (x : Vec) (t : Tag) : (writeDest a d x t).pend = a.pend := by
  unfold writeDest; split <;> simp
@[simp] theorem writeDest_snapshot (a : Act) (d : Dest) (x : Vec) (t : Tag) : (writeDest a d x t).snapshot = a.snapshot := by
  unfold writeDest; split <;> simp
@[simp] theorem writeDest_trap (a : Act) (d : Dest) (x : Vec) (t : Tag) : (writeDest a d x t).trap = a.trap := by
  unfold writeDest; split <;> simp
@[simp] theorem writeDest_frozen (a : Act) (d : Dest) (x : Vec) (t : Tag) : (writeDest a d x t).frozen = a.frozen := by
  unfold writeDest; split <;> simp
@[simp] theorem writeDest_deferred (a : Act) (d : Dest) (x : Vec) (t : Tag) : (writeDest a d x t).deferred = a.deferred := by
  unfold writeDest; split <;> simp
@[simp] theorem writeDest_deferredHeld (a : Act) (d : Dest) (x : Vec) (t : Tag) : (writeDest a d x t).deferredHeld = a.deferredHeld := by
  unfold writeDest; split <;> simp
@[simp] theorem writeDest_feeds (a : Act) (d : Dest) (x : Vec) (t : Tag) : (writeDest a d x t).feeds = a.feeds := by
  unfold writeDest; split <;> simp
@[simp] theorem writeDest_held (a : Act) (d : Dest) (x : Vec) (t : Tag) : (writeDest a d x t).held = a.held := by
  unfold writeDest; split <;> simp
@[simp] theorem writeDest_incarnation (a : Act) (d : Dest) (x : Vec) (t : Tag) : (writeDest a d x t).incarnation = a.incarnation := by
  unfold writeDest; split <;> simp
@[simp] theorem writeDest_weight (a : Act) (d : Dest) (x : Vec) (t : Tag) : (writeDest a d x t).weight = a.weight := by
  unfold writeDest; split <;> simp
@[simp] theorem writeDest_handle (a : Act) (d : Dest) (x : Vec) (t : Tag) : (writeDest a d x t).handle = a.handle := by
  unfold writeDest; split <;> simp
@[simp] theorem writeDest_serves (a : Act) (d : Dest) (x : Vec) (t : Tag) : (writeDest a d x t).serves = a.serves := by
  unfold writeDest; split <;> simp
@[simp] theorem writeDest_hold (a : Act) (d : Dest) (x : Vec) (t : Tag) : (writeDest a d x t).hold = a.hold := by
  unfold writeDest; split <;> simp

/-! ### landFixed -/

@[simp] theorem landFixed_key (a : Act) (f : InFlight) : (landFixed a f).key = a.key := by
  simp [landFixed]
@[simp] theorem landFixed_stamp (a : Act) (f : InFlight) : (landFixed a f).stamp = a.stamp := by
  simp [landFixed]
@[simp] theorem landFixed_task (a : Act) (f : InFlight) : (landFixed a f).task = a.task := by
  simp [landFixed]
@[simp] theorem landFixed_status (a : Act) (f : InFlight) : (landFixed a f).status = a.status := by
  simp [landFixed]
@[simp] theorem landFixed_place (a : Act) (f : InFlight) : (landFixed a f).place = a.place := by
  simp [landFixed]
@[simp] theorem landFixed_eTag (a : Act) (f : InFlight) : (landFixed a f).eTag = a.eTag := by
  simp [landFixed]
@[simp] theorem landFixed_clocks (a : Act) (f : InFlight) : (landFixed a f).clocks = a.clocks := by
  simp [landFixed]
@[simp] theorem landFixed_fpc (a : Act) (f : InFlight) : (landFixed a f).fpc = a.fpc := by
  simp [landFixed]
@[simp] theorem landFixed_vpart (a : Act) (f : InFlight) : (landFixed a f).vpart = a.vpart := by
  simp [landFixed]
@[simp] theorem landFixed_loops (a : Act) (f : InFlight) : (landFixed a f).loops = a.loops := by
  simp [landFixed]
@[simp] theorem landFixed_seq (a : Act) (f : InFlight) : (landFixed a f).seq = a.seq := by
  simp [landFixed]
@[simp] theorem landFixed_pc (a : Act) (f : InFlight) : (landFixed a f).pc = a.pc := by
  simp [landFixed]
@[simp] theorem landFixed_adv (a : Act) (f : InFlight) : (landFixed a f).adv = a.adv := by
  simp [landFixed]
@[simp] theorem landFixed_inflight (a : Act) (f : InFlight) : (landFixed a f).inflight = a.inflight := by
  simp [landFixed]
@[simp] theorem landFixed_pend (a : Act) (f : InFlight) : (landFixed a f).pend = a.pend := by
  simp [landFixed]
@[simp] theorem landFixed_snapshot (a : Act) (f : InFlight) : (landFixed a f).snapshot = a.snapshot := by
  simp [landFixed]
@[simp] theorem landFixed_trap (a : Act) (f : InFlight) : (landFixed a f).trap = a.trap := by
  simp [landFixed]
@[simp] theorem landFixed_frozen (a : Act) (f : InFlight) : (landFixed a f).frozen = a.frozen := by
  simp [landFixed]
@[simp] theorem landFixed_deferred (a : Act) (f : InFlight) : (landFixed a f).deferred = a.deferred := by
  simp [landFixed]
@[simp] theorem landFixed_deferredHeld (a : Act) (f : InFlight) : (landFixed a f).deferredHeld = a.deferredHeld := by
  simp [landFixed]
@[simp] theorem landFixed_feeds (a : Act) (f : InFlight) : (landFixed a f).feeds = a.feeds := by
  simp [landFixed]
@[simp] theorem landFixed_held (a : Act) (f : InFlight) : (landFixed a f).held = a.held := by
  simp [landFixed]
@[simp] theorem landFixed_incarnation (a : Act) (f : InFlight) : (landFixed a f).incarnation = a.incarnation := by
  simp [landFixed]
@[simp] theorem landFixed_weight (a : Act) (f : InFlight) : (landFixed a f).weight = a.weight := by
  simp [landFixed]
@[simp] theorem landFixed_handle (a : Act) (f : InFlight) : (landFixed a f).handle = a.handle := by
  simp [landFixed]
@[simp] theorem landFixed_serves (a : Act) (f : InFlight) : (landFixed a f).serves = a.serves := by
  simp [landFixed]
@[simp] theorem landFixed_hold (a : Act) (f : InFlight) : (landFixed a f).hold = a.hold := by
  simp [landFixed]

/-! ### landPend -/

@[simp] theorem landPend_key (a : Act) (p : Pend) : (landPend a p).key = a.key := by
  simp [landPend]
@[simp] theorem landPend_stamp (a : Act) (p : Pend) : (landPend a p).stamp = a.stamp := by
  simp [landPend]
@[simp] theorem landPend_task (a : Act) (p : Pend) : (landPend a p).task = a.task := by
  simp [landPend]
@[simp] theorem landPend_status (a : Act) (p : Pend) : (landPend a p).status = a.status := by
  simp [landPend]
@[simp] theorem landPend_place (a : Act) (p : Pend) : (landPend a p).place = a.place := by
  simp [landPend]
@[simp] theorem landPend_eTag (a : Act) (p : Pend) : (landPend a p).eTag = a.eTag := by
  simp [landPend]
@[simp] theorem landPend_clocks (a : Act) (p : Pend) : (landPend a p).clocks = a.clocks := by
  simp [landPend]
@[simp] theorem landPend_fpc (a : Act) (p : Pend) : (landPend a p).fpc = a.fpc := by
  simp [landPend]
@[simp] theorem landPend_vpart (a : Act) (p : Pend) : (landPend a p).vpart = a.vpart := by
  simp [landPend]
@[simp] theorem landPend_loops (a : Act) (p : Pend) : (landPend a p).loops = a.loops := by
  simp [landPend]
@[simp] theorem landPend_seq (a : Act) (p : Pend) : (landPend a p).seq = a.seq := by
  simp [landPend]
@[simp] theorem landPend_pc (a : Act) (p : Pend) : (landPend a p).pc = a.pc := by
  simp [landPend]
@[simp] theorem landPend_adv (a : Act) (p : Pend) : (landPend a p).adv = a.adv := by
  simp [landPend]
@[simp] theorem landPend_trap (a : Act) (p : Pend) : (landPend a p).trap = a.trap := by
  simp [landPend]
@[simp] theorem landPend_frozen (a : Act) (p : Pend) : (landPend a p).frozen = a.frozen := by
  simp [landPend]
@[simp] theorem landPend_deferred (a : Act) (p : Pend) : (landPend a p).deferred = a.deferred := by
  simp [landPend]
@[simp] theorem landPend_deferredHeld (a : Act) (p : Pend) : (landPend a p).deferredHeld = a.deferredHeld := by
  simp [landPend]
@[simp] theorem landPend_feeds (a : Act) (p : Pend) : (landPend a p).feeds = a.feeds := by
  simp [landPend]
@[simp] theorem landPend_held (a : Act) (p : Pend) : (landPend a p).held = a.held := by
  simp [landPend]
@[simp] theorem landPend_incarnation (a : Act) (p : Pend) : (landPend a p).incarnation = a.incarnation := by
  simp [landPend]
@[simp] theorem landPend_weight (a : Act) (p : Pend) : (landPend a p).weight = a.weight := by
  simp [landPend]
@[simp] theorem landPend_handle (a : Act) (p : Pend) : (landPend a p).handle = a.handle := by
  simp [landPend]
@[simp] theorem landPend_serves (a : Act) (p : Pend) : (landPend a p).serves = a.serves := by
  simp [landPend]
@[simp] theorem landPend_hold (a : Act) (p : Pend) : (landPend a p).hold = a.hold := by
  simp [landPend]

/-! ### markStale -/

@[simp] theorem mapVec_getElem {α β : Type} {n : Nat} (f : α → β) (v : Vector α n) (i : Nat) (h : i < n) :
    (mapVec f v)[i] = f v[i] := by
  simp [mapVec]

@[simp] theorem markStale_key (ks : List (Fin 14)) (a : Act) : (markStale ks a).key = a.key := rfl
@[simp] theorem markStale_stamp (ks : List (Fin 14)) (a : Act) : (markStale ks a).stamp = a.stamp := rfl
@[simp] theorem markStale_task (ks : List (Fin 14)) (a : Act) : (markStale ks a).task = a.task := rfl
@[simp] theorem markStale_status (ks : List (Fin 14)) (a : Act) : (markStale ks a).status = a.status := rfl
@[simp] theorem markStale_place (ks : List (Fin 14)) (a : Act) : (markStale ks a).place = a.place := rfl
@[simp] theorem markStale_s (ks : List (Fin 14)) (a : Act) : (markStale ks a).s = a.s := rfl
@[simp] theorem markStale_v (ks : List (Fin 14)) (a : Act) : (markStale ks a).v = a.v := rfl
@[simp] theorem markStale_clocks (ks : List (Fin 14)) (a : Act) : (markStale ks a).clocks = a.clocks := rfl
@[simp] theorem markStale_fpc (ks : List (Fin 14)) (a : Act) : (markStale ks a).fpc = a.fpc := rfl
@[simp] theorem markStale_vpart (ks : List (Fin 14)) (a : Act) : (markStale ks a).vpart = a.vpart := rfl
@[simp] theorem markStale_loops (ks : List (Fin 14)) (a : Act) : (markStale ks a).loops = a.loops := rfl
@[simp] theorem markStale_seq (ks : List (Fin 14)) (a : Act) : (markStale ks a).seq = a.seq := rfl
@[simp] theorem markStale_pc (ks : List (Fin 14)) (a : Act) : (markStale ks a).pc = a.pc := rfl
@[simp] theorem markStale_adv (ks : List (Fin 14)) (a : Act) : (markStale ks a).adv = a.adv := rfl
@[simp] theorem markStale_snapshot (ks : List (Fin 14)) (a : Act) : (markStale ks a).snapshot = a.snapshot := rfl
@[simp] theorem markStale_trap (ks : List (Fin 14)) (a : Act) : (markStale ks a).trap = a.trap := rfl
@[simp] theorem markStale_frozen (ks : List (Fin 14)) (a : Act) : (markStale ks a).frozen = a.frozen := rfl
@[simp] theorem markStale_deferred (ks : List (Fin 14)) (a : Act) : (markStale ks a).deferred = a.deferred := rfl
@[simp] theorem markStale_deferredHeld (ks : List (Fin 14)) (a : Act) : (markStale ks a).deferredHeld = a.deferredHeld := rfl
@[simp] theorem markStale_feeds (ks : List (Fin 14)) (a : Act) : (markStale ks a).feeds = a.feeds := rfl
@[simp] theorem markStale_held (ks : List (Fin 14)) (a : Act) : (markStale ks a).held = a.held := rfl
@[simp] theorem markStale_incarnation (ks : List (Fin 14)) (a : Act) : (markStale ks a).incarnation = a.incarnation := rfl
@[simp] theorem markStale_weight (ks : List (Fin 14)) (a : Act) : (markStale ks a).weight = a.weight := rfl
@[simp] theorem markStale_handle (ks : List (Fin 14)) (a : Act) : (markStale ks a).handle = a.handle := rfl
@[simp] theorem markStale_serves (ks : List (Fin 14)) (a : Act) : (markStale ks a).serves = a.serves := rfl
@[simp] theorem markStale_hold (ks : List (Fin 14)) (a : Act) : (markStale ks a).hold = a.hold := rfl

/-! ### freezeAct -/

@[simp] theorem freezeAct_key (a : Act) (r : TrapRec) (g : FrozenStage) : (freezeAct a r g).key = a.key := rfl
@[simp] theorem freezeAct_stamp (a : Act) (r : TrapRec) (g : FrozenStage) : (freezeAct a r g).stamp = a.stamp := rfl
@[simp] theorem freezeAct_task (a : Act) (r : TrapRec) (g : FrozenStage) : (freezeAct a r g).task = a.task := rfl
@[simp] theorem freezeAct_place (a : Act) (r : TrapRec) (g : FrozenStage) : (freezeAct a r g).place = a.place := rfl
@[simp] theorem freezeAct_s (a : Act) (r : TrapRec) (g : FrozenStage) : (freezeAct a r g).s = a.s := rfl
@[simp] theorem freezeAct_sTag (a : Act) (r : TrapRec) (g : FrozenStage) : (freezeAct a r g).sTag = a.sTag := rfl
@[simp] theorem freezeAct_v (a : Act) (r : TrapRec) (g : FrozenStage) : (freezeAct a r g).v = a.v := rfl
@[simp] theorem freezeAct_vTag (a : Act) (r : TrapRec) (g : FrozenStage) : (freezeAct a r g).vTag = a.vTag := rfl
@[simp] theorem freezeAct_eTag (a : Act) (r : TrapRec) (g : FrozenStage) : (freezeAct a r g).eTag = a.eTag := rfl
@[simp] theorem freezeAct_clocks (a : Act) (r : TrapRec) (g : FrozenStage) : (freezeAct a r g).clocks = a.clocks := rfl
@[simp] theorem freezeAct_fpc (a : Act) (r : TrapRec) (g : FrozenStage) : (freezeAct a r g).fpc = a.fpc := rfl
@[simp] theorem freezeAct_vpart (a : Act) (r : TrapRec) (g : FrozenStage) : (freezeAct a r g).vpart = a.vpart := rfl
@[simp] theorem freezeAct_loops (a : Act) (r : TrapRec) (g : FrozenStage) : (freezeAct a r g).loops = a.loops := rfl
@[simp] theorem freezeAct_seq (a : Act) (r : TrapRec) (g : FrozenStage) : (freezeAct a r g).seq = a.seq := rfl
@[simp] theorem freezeAct_pc (a : Act) (r : TrapRec) (g : FrozenStage) : (freezeAct a r g).pc = a.pc := rfl
@[simp] theorem freezeAct_adv (a : Act) (r : TrapRec) (g : FrozenStage) : (freezeAct a r g).adv = a.adv := rfl
@[simp] theorem freezeAct_pend (a : Act) (r : TrapRec) (g : FrozenStage) : (freezeAct a r g).pend = a.pend := rfl
@[simp] theorem freezeAct_trap (a : Act) (r : TrapRec) (g : FrozenStage) : (freezeAct a r g).trap = a.trap := rfl
@[simp] theorem freezeAct_deferred (a : Act) (r : TrapRec) (g : FrozenStage) : (freezeAct a r g).deferred = a.deferred := rfl
@[simp] theorem freezeAct_deferredHeld (a : Act) (r : TrapRec) (g : FrozenStage) : (freezeAct a r g).deferredHeld = a.deferredHeld := rfl
@[simp] theorem freezeAct_feeds (a : Act) (r : TrapRec) (g : FrozenStage) : (freezeAct a r g).feeds = a.feeds := rfl
@[simp] theorem freezeAct_held (a : Act) (r : TrapRec) (g : FrozenStage) : (freezeAct a r g).held = a.held := rfl
@[simp] theorem freezeAct_incarnation (a : Act) (r : TrapRec) (g : FrozenStage) : (freezeAct a r g).incarnation = a.incarnation := rfl
@[simp] theorem freezeAct_weight (a : Act) (r : TrapRec) (g : FrozenStage) : (freezeAct a r g).weight = a.weight := rfl
@[simp] theorem freezeAct_handle (a : Act) (r : TrapRec) (g : FrozenStage) : (freezeAct a r g).handle = a.handle := rfl
@[simp] theorem freezeAct_serves (a : Act) (r : TrapRec) (g : FrozenStage) : (freezeAct a r g).serves = a.serves := rfl
@[simp] theorem freezeAct_hold (a : Act) (r : TrapRec) (g : FrozenStage) : (freezeAct a r g).hold = a.hold := rfl

/-! ### thawAct -/

@[simp] theorem thawAct_key (a : Act) (c : Nat) : (thawAct a c).key = a.key := rfl
@[simp] theorem thawAct_stamp (a : Act) (c : Nat) : (thawAct a c).stamp = a.stamp := rfl
@[simp] theorem thawAct_task (a : Act) (c : Nat) : (thawAct a c).task = a.task := rfl
@[simp] theorem thawAct_place (a : Act) (c : Nat) : (thawAct a c).place = a.place := rfl
@[simp] theorem thawAct_s (a : Act) (c : Nat) : (thawAct a c).s = a.s := rfl
@[simp] theorem thawAct_sTag (a : Act) (c : Nat) : (thawAct a c).sTag = a.sTag := rfl
@[simp] theorem thawAct_v (a : Act) (c : Nat) : (thawAct a c).v = a.v := rfl
@[simp] theorem thawAct_vTag (a : Act) (c : Nat) : (thawAct a c).vTag = a.vTag := rfl
@[simp] theorem thawAct_eTag (a : Act) (c : Nat) : (thawAct a c).eTag = a.eTag := rfl
@[simp] theorem thawAct_clocks (a : Act) (c : Nat) : (thawAct a c).clocks = a.clocks := rfl
@[simp] theorem thawAct_fpc (a : Act) (c : Nat) : (thawAct a c).fpc = a.fpc := rfl
@[simp] theorem thawAct_vpart (a : Act) (c : Nat) : (thawAct a c).vpart = a.vpart := rfl
@[simp] theorem thawAct_loops (a : Act) (c : Nat) : (thawAct a c).loops = a.loops := rfl
@[simp] theorem thawAct_seq (a : Act) (c : Nat) : (thawAct a c).seq = a.seq := rfl
@[simp] theorem thawAct_pc (a : Act) (c : Nat) : (thawAct a c).pc = a.pc := rfl
@[simp] theorem thawAct_adv (a : Act) (c : Nat) : (thawAct a c).adv = a.adv := rfl
@[simp] theorem thawAct_pend (a : Act) (c : Nat) : (thawAct a c).pend = a.pend := rfl
@[simp] theorem thawAct_trap (a : Act) (c : Nat) : (thawAct a c).trap = a.trap := rfl
@[simp] theorem thawAct_deferred (a : Act) (c : Nat) : (thawAct a c).deferred = a.deferred := rfl
@[simp] theorem thawAct_deferredHeld (a : Act) (c : Nat) : (thawAct a c).deferredHeld = a.deferredHeld := rfl
@[simp] theorem thawAct_feeds (a : Act) (c : Nat) : (thawAct a c).feeds = a.feeds := rfl
@[simp] theorem thawAct_held (a : Act) (c : Nat) : (thawAct a c).held = a.held := rfl
@[simp] theorem thawAct_incarnation (a : Act) (c : Nat) : (thawAct a c).incarnation = a.incarnation := rfl
@[simp] theorem thawAct_weight (a : Act) (c : Nat) : (thawAct a c).weight = a.weight := rfl
@[simp] theorem thawAct_handle (a : Act) (c : Nat) : (thawAct a c).handle = a.handle := rfl
@[simp] theorem thawAct_serves (a : Act) (c : Nat) : (thawAct a c).serves = a.serves := rfl
@[simp] theorem thawAct_hold (a : Act) (c : Nat) : (thawAct a c).hold = a.hold := rfl

/-! ### addDeferred -/

@[simp] theorem addDeferred_key (a : Act) (r : TrapRec) : (addDeferred a r).key = a.key := by
  unfold addDeferred; split <;> rfl
@[simp] theorem addDeferred_stamp (a : Act) (r : TrapRec) : (addDeferred a r).stamp = a.stamp := by
  unfold addDeferred; split <;> rfl
@[simp] theorem addDeferred_task (a : Act) (r : TrapRec) : (addDeferred a r).task = a.task := by
  unfold addDeferred; split <;> rfl
@[simp] theorem addDeferred_status (a : Act) (r : TrapRec) : (addDeferred a r).status = a.status := by
  unfold addDeferred; split <;> rfl
@[simp] theorem addDeferred_place (a : Act) (r : TrapRec) : (addDeferred a r).place = a.place := by
  unfold addDeferred; split <;> rfl
@[simp] theorem addDeferred_s (a : Act) (r : TrapRec) : (addDeferred a r).s = a.s := by
  unfold addDeferred; split <;> rfl
@[simp] theorem addDeferred_sTag (a : Act) (r : TrapRec) : (addDeferred a r).sTag = a.sTag := by
  unfold addDeferred; split <;> rfl
@[simp] theorem addDeferred_v (a : Act) (r : TrapRec) : (addDeferred a r).v = a.v := by
  unfold addDeferred; split <;> rfl
@[simp] theorem addDeferred_vTag (a : Act) (r : TrapRec) : (addDeferred a r).vTag = a.vTag := by
  unfold addDeferred; split <;> rfl
@[simp] theorem addDeferred_eTag (a : Act) (r : TrapRec) : (addDeferred a r).eTag = a.eTag := by
  unfold addDeferred; split <;> rfl
@[simp] theorem addDeferred_clocks (a : Act) (r : TrapRec) : (addDeferred a r).clocks = a.clocks := by
  unfold addDeferred; split <;> rfl
@[simp] theorem addDeferred_fpc (a : Act) (r : TrapRec) : (addDeferred a r).fpc = a.fpc := by
  unfold addDeferred; split <;> rfl
@[simp] theorem addDeferred_vpart (a : Act) (r : TrapRec) : (addDeferred a r).vpart = a.vpart := by
  unfold addDeferred; split <;> rfl
@[simp] theorem addDeferred_loops (a : Act) (r : TrapRec) : (addDeferred a r).loops = a.loops := by
  unfold addDeferred; split <;> rfl
@[simp] theorem addDeferred_seq (a : Act) (r : TrapRec) : (addDeferred a r).seq = a.seq := by
  unfold addDeferred; split <;> rfl
@[simp] theorem addDeferred_pc (a : Act) (r : TrapRec) : (addDeferred a r).pc = a.pc := by
  unfold addDeferred; split <;> rfl
@[simp] theorem addDeferred_adv (a : Act) (r : TrapRec) : (addDeferred a r).adv = a.adv := by
  unfold addDeferred; split <;> rfl
@[simp] theorem addDeferred_inflight (a : Act) (r : TrapRec) : (addDeferred a r).inflight = a.inflight := by
  unfold addDeferred; split <;> rfl
@[simp] theorem addDeferred_pend (a : Act) (r : TrapRec) : (addDeferred a r).pend = a.pend := by
  unfold addDeferred; split <;> rfl
@[simp] theorem addDeferred_snapshot (a : Act) (r : TrapRec) : (addDeferred a r).snapshot = a.snapshot := by
  unfold addDeferred; split <;> rfl
@[simp] theorem addDeferred_trap (a : Act) (r : TrapRec) : (addDeferred a r).trap = a.trap := by
  unfold addDeferred; split <;> rfl
@[simp] theorem addDeferred_frozen (a : Act) (r : TrapRec) : (addDeferred a r).frozen = a.frozen := by
  unfold addDeferred; split <;> rfl
@[simp] theorem addDeferred_feeds (a : Act) (r : TrapRec) : (addDeferred a r).feeds = a.feeds := by
  unfold addDeferred; split <;> rfl
@[simp] theorem addDeferred_held (a : Act) (r : TrapRec) : (addDeferred a r).held = a.held := by
  unfold addDeferred; split <;> rfl
@[simp] theorem addDeferred_incarnation (a : Act) (r : TrapRec) : (addDeferred a r).incarnation = a.incarnation := by
  unfold addDeferred; split <;> rfl
@[simp] theorem addDeferred_weight (a : Act) (r : TrapRec) : (addDeferred a r).weight = a.weight := by
  unfold addDeferred; split <;> rfl
@[simp] theorem addDeferred_handle (a : Act) (r : TrapRec) : (addDeferred a r).handle = a.handle := by
  unfold addDeferred; split <;> rfl
@[simp] theorem addDeferred_serves (a : Act) (r : TrapRec) : (addDeferred a r).serves = a.serves := by
  unfold addDeferred; split <;> rfl
@[simp] theorem addDeferred_hold (a : Act) (r : TrapRec) : (addDeferred a r).hold = a.hold := by
  unfold addDeferred; split <;> rfl

/-! ### sendLive, stallLoad and stallEntry -/

@[simp] theorem sendLive_act (s : State) (q : LiveReq) : (sendLive s q).act = s.act := rfl
@[simp] theorem sendLive_dev0 (s : State) (q : LiveReq) : (sendLive s q).dev0 = s.dev0 := rfl
@[simp] theorem sendLive_act0 (s : State) (q : LiveReq) : (sendLive s q).act0 = s.act0 := rfl
@[simp] theorem sendLive_iss (s : State) (q : LiveReq) : (sendLive s q).iss = s.iss := rfl
@[simp] theorem sendLive_agenda (s : State) (q : LiveReq) : (sendLive s q).agenda = s.agenda := rfl
@[simp] theorem sendLive_liveq (s : State) (q : LiveReq) : (sendLive s q).dev.liveq = s.dev.liveq ++ [q] := rfl
@[simp] theorem sendLive_mem (s : State) (q : LiveReq) : (sendLive s q).dev.mem = s.dev.mem := rfl
@[simp] theorem stallLoad_dev (s : State) (m : MemMode) : (stallLoad s m).dev = s.dev0 := by unfold stallLoad; dsimp only; split <;> rfl
@[simp] theorem stallLoad_iss (s : State) (m : MemMode) : (stallLoad s m).iss = { s.iss with status := .stalled } := by
  unfold stallLoad; dsimp only; split <;> rfl
@[simp] theorem stallLoad_act0 (s : State) (m : MemMode) : (stallLoad s m).act0 = s.act0 := by unfold stallLoad; dsimp only; split <;> rfl
@[simp] theorem stallEntry_dev (s : State) : (stallEntry s).dev = s.dev0 := rfl
@[simp] theorem stallEntry_iss (s : State) : (stallEntry s).iss = { s.iss with status := .stalled } := rfl
@[simp] theorem stallEntry_act0 (s : State) : (stallEntry s).act0 = s.act0 := rfl

end Sys2Proof.Machine
end

