-- ==== Sys2Proof/Laws/Issue.lean ====
section
/-! SUPPORT. What the issue of one slot can do, what a landing result does to the registers, and what a stall and a trap
leave. -/
namespace Sys2Proof.Machine

/-- The issue of a slot: a structural trap, an absent clock, an interlock stall, or its own effect. -/
theorem issue_cases (i : Instr) (s : State) (body : Tag → State → State) :
    (∃ c x, structural s i = .trap c x ∧ issue i s body = .next (slotTrap s c 0 x)) ∨
    (∃ t, structural s i = .go t false ∧ issue i s body = .next s) ∨
    (∃ t, structural s i = .go t true ∧ awaited s.act0 i = true ∧ issue i s body = .next (stall s)) ∨
    (∃ t, Effective s i t ∧ issue i s body = .next (body t s)) := by
  unfold issue Effective
  cases h : structural s i with
  | trap c x => exact .inl ⟨c, x, rfl, rfl⟩
  | go t p =>
    cases p with
    | false => exact .inr (.inl ⟨t, rfl, rfl⟩)
    | true =>
      cases ha : awaited s.act0 i with
      | true => exact .inr (.inr (.inl ⟨t, rfl, rfl, by simp⟩))
      | false => exact .inr (.inr (.inr ⟨t, ⟨rfl, rfl⟩, by simp⟩))

/-- A slot that takes effect has its own effect. -/
theorem issue_effective {i : Instr} {s : State} {t : Tag} (body : Tag → State → State) (h : Effective s i t) :
    issue i s body = .next (body t s) := by
  simp [issue, h.1, h.2]

/-- A slot that fails its structural checks traps. -/
theorem issue_trap {i : Instr} {s : State} {c x : Nat} (body : Tag → State → State) (h : structural s i = .trap c x) :
    issue i s body = .next (slotTrap s c 0 x) := by
  simp [issue, h]

/-- A slot on an absent clock leaves the state as it is. -/
theorem issue_absent {i : Instr} {s : State} {t : Tag} (body : Tag → State → State) (h : structural s i = .go t false) :
    issue i s body = .next s := by
  simp [issue, h]

/-- A meaning that is one issue completes with its body. -/
theorem completes_of_issue {i : Instr} {s : State} {f : Tag → State} (body : Tag → State → State)
    (he : exec i s = issue i s body) (hb : ∀ t, body t s = f t) : Completes s i f := by
  intro t h
  rw [he, issue_effective body h, hb]

/-- Every issue answers a next state. -/
theorem issue_next (i : Instr) (s : State) (body : Tag → State → State) : ∃ t, issue i s body = .next t := by
  obtain ⟨c, x, -, h⟩ | ⟨t, -, h⟩ | ⟨t, -, -, h⟩ | ⟨t, -, h⟩ := issue_cases i s body <;> exact ⟨_, h⟩

/-! ### Registers -/

theorem readS_zero (a : Act) : readS a 0 = 0 := rfl

theorem writeS_zero (a : Act) (x : Word) (t : Tag) : writeS a 0 x t = a := rfl

theorem readS_writeS_same (a : Act) {r : SReg} (h : r ≠ 0) (x : Word) (t : Tag) : readS (writeS a r x t) r = x := by
  simp [readS, writeS, h]

theorem readS_writeS_other (a : Act) {r q : SReg} (h : q ≠ r) (x : Word) (t : Tag) :
    readS (writeS a r x t) q = readS a q := by
  unfold readS writeS
  split
  · rfl
  · split
    · rfl
    · have : r.val ≠ q.val := fun e => h (Fin.ext e.symm)
      simp [this]

theorem tagS_writeS_same (a : Act) {r : SReg} (h : r ≠ 0) (x : Word) (t : Tag) : tagS (writeS a r x t) r = t := by
  simp [tagS, writeS, h]

theorem tagS_writeS_other (a : Act) {r q : SReg} (h : q ≠ r) (x : Word) (t : Tag) :
    tagS (writeS a r x t) q = tagS a q := by
  unfold tagS writeS
  split
  · rfl
  · split
    · rfl
    · have : r.val ≠ q.val := fun e => h (Fin.ext e.symm)
      simp [this]

theorem readS_writeV (a : Act) (r : VReg) (x : Vec) (t : Tag) (q : SReg) : readS (writeV a r x t) q = readS a q := rfl

theorem readV_writeV_same (a : Act) (r : VReg) (x : Vec) (t : Tag) : readV (writeV a r x t) r = x := by
  simp [readV, writeV]

theorem readV_writeV_other (a : Act) {r q : VReg} (h : q ≠ r) (x : Vec) (t : Tag) :
    readV (writeV a r x t) q = readV a q := by
  have : r.val ≠ q.val := fun e => h (Fin.ext e.symm)
  simp [readV, writeV, this]

theorem tagV_writeV_same (a : Act) (r : VReg) (x : Vec) (t : Tag) : tagV (writeV a r x t) r = t := by
  simp [tagV, writeV]

theorem tagV_writeV_other (a : Act) {r q : VReg} (h : q ≠ r) (x : Vec) (t : Tag) :
    tagV (writeV a r x t) q = tagV a q := by
  have : r.val ≠ q.val := fun e => h (Fin.ext e.symm)
  simp [tagV, writeV, this]

theorem readV_writeS (a : Act) (r : SReg) (x : Word) (t : Tag) (q : VReg) : readV (writeS a r x t) q = readV a q := by
  simp [readV]

/-- A word put into a result comes back whole. -/
theorem wordOfVec_vecOfWord (x : Word) : wordOfVec (vecOfWord x) = x := by
  apply BitVec.eq_of_toNat_eq
  have h := x.isLt
  simp only [wordOfVec, vecOfWord, BitVec.toNat_ofNat]
  omega

/-! ### Stalls and traps -/

/-- A stalled bundle leaves the device and the activation as they stood before it. -/
theorem stall_restores (s : State) : (stall s).dev = s.dev0 ∧ (stall s).act = s.act0 := ⟨rfl, rfl⟩

/-- A trap depends on the state before the bundle, the agenda and the bundle in issue alone. -/
theorem takeTrap_restores (s t : State) (cause addr info : Nat) (hd : s.dev0 = t.dev0) (ha : s.act0 = t.act0)
    (hi : s.iss = t.iss) (hg : s.agenda = t.agenda) : takeTrap s cause addr info = takeTrap t cause addr info := by
  cases s; cases t; simp_all [takeTrap, freezeWith]

end Sys2Proof.Machine
end

