-- ==== Sys2Proof/Laws/Memory.lean ====
section
/-! SUPPORT. Device memory: every operation keeps the canonical form, a read answers the last write, and a write leaves
every other byte alone. -/
namespace Sys2Proof.Machine

theorem memSorted_mono {lo hi : Nat} (h : lo ≤ hi) : ∀ {m : List Host.Cell}, memSorted hi m = true → memSorted lo m = true
  | [], _ => rfl
  | (k, b) :: rest, hm => by
    simp only [memSorted, Bool.and_eq_true, decide_eq_true_eq, bne_iff_ne] at hm ⊢
    exact ⟨⟨by omega, hm.1.2⟩, hm.2⟩

theorem memWf_nil : memWf [] = true := rfl

/-- Below the first listed address a sorted memory is blank. -/
theorem memRead_below {lo a : Nat} (h : a < lo) : ∀ {m : List Host.Cell}, memSorted lo m = true → memRead m a = blankByte
  | [], _ => rfl
  | (k, b) :: rest, hm => by
    simp only [memSorted, Bool.and_eq_true, decide_eq_true_eq, bne_iff_ne] at hm
    have h1 : k ≠ a := by omega
    have h2 : a < k := by omega
    simp [memRead, h1, h2]

theorem memWrite_sorted {lo a : Nat} {b : Byte} (h : lo ≤ a) :
    ∀ {m : List Host.Cell}, memSorted lo m = true → memSorted lo (memWrite m a b) = true
  | [], _ => by
    by_cases hb : b = blankByte <;> simp [memWrite, memSorted, hb, h]
  | (k, c) :: rest, hm => by
    have hm' := hm
    simp only [memSorted, Bool.and_eq_true, decide_eq_true_eq, bne_iff_ne] at hm
    obtain ⟨⟨hk, hc⟩, hr⟩ := hm
    by_cases h1 : a < k
    · by_cases hb : b = blankByte
      · simp [memWrite, h1, hb, hm']
      · have : memSorted (a + 1) ((k, c) :: rest) = true := by
          simp only [memSorted, Bool.and_eq_true, decide_eq_true_eq, bne_iff_ne]
          exact ⟨⟨by omega, hc⟩, hr⟩
        simp [memWrite, h1, hb, memSorted, h] at this ⊢
        exact this
    · by_cases h2 : k = a
      · by_cases hb : b = blankByte
        · simp [memWrite, h2, hb]
          exact memSorted_mono (by omega) hr
        · subst h2
          simp [memWrite, hb, memSorted, hk, hr]
      · have := memWrite_sorted (b := b) (show k + 1 ≤ a by omega) hr
        simp [memWrite, h1, h2, memSorted, hk, hc, this]

/-- Writing one byte keeps the canonical form. -/
theorem memWrite_wf {m : List Host.Cell} (a : Nat) (b : Byte) (h : memWf m = true) : memWf (memWrite m a b) = true :=
  memWrite_sorted (Nat.zero_le a) h

/-- Writing bytes keeps the canonical form. -/
theorem memWriteBytes_wf : ∀ (bs : List Byte) {m : List Host.Cell} (a : Nat), memWf m = true → memWf (memWriteBytes m a bs) = true
  | [], _, _, h => h
  | b :: bs, _, a, h => memWriteBytes_wf bs (a + 1) (memWrite_wf a b h)

theorem memSorted_filter (p : Host.Cell → Bool) {lo : Nat} :
    ∀ {m : List Host.Cell}, memSorted lo m = true → memSorted lo (m.filter p) = true
  | [], _ => rfl
  | (k, b) :: rest, hm => by
    simp only [memSorted, Bool.and_eq_true, decide_eq_true_eq, bne_iff_ne] at hm
    obtain ⟨⟨hk, hb⟩, hr⟩ := hm
    have ih := memSorted_filter p hr
    by_cases hp : p (k, b) = true
    · simp [hp, memSorted, hk, hb, ih]
    · rw [List.filter_cons_of_neg hp]
      exact memSorted_mono (by omega) ih

/-- Clearing a range keeps the canonical form. -/
theorem memClear_wf {m : List Host.Cell} (lo n : Nat) (h : memWf m = true) : memWf (memClear m lo n) = true :=
  memSorted_filter _ h

theorem memRead_memWrite_sorted {lo a x : Nat} {b : Byte} :
    ∀ {m : List Host.Cell}, memSorted lo m = true → memRead (memWrite m a b) x = if x = a then b else memRead m x
  | [], _ => by
    by_cases hb : b = blankByte
    · by_cases hx : x = a <;> simp [memWrite, memRead, hb, hx]
    · by_cases hx : x = a
      · simp [memWrite, memRead, hb, hx]
      · have : ¬ a = x := fun h => hx h.symm
        simp [memWrite, memRead, hb, hx, this]
  | (k, c) :: rest, hm => by
    simp only [memSorted, Bool.and_eq_true, decide_eq_true_eq, bne_iff_ne] at hm
    obtain ⟨⟨hk, hc⟩, hr⟩ := hm
    have ih := @memRead_memWrite_sorted (k + 1) a x b rest hr
    by_cases h1 : a < k
    · by_cases hb : b = blankByte
      · by_cases hx : x = a
        · subst hx
          have h2 : ¬ k = x := by omega
          simp [memWrite, h1, hb, memRead, h2]
        · simp [memWrite, h1, hb, hx]
      · by_cases hx : x = a
        · simp [memWrite, h1, hb, hx, memRead]
        · have hx' : ¬ a = x := fun h => hx h.symm
          by_cases h3 : x < a
          · have h4 : ¬ k = x := by omega
            have h5 : x < k := by omega
            simp [memWrite, h1, hb, hx, hx', h3, memRead, h4, h5]
          · simp [memWrite, h1, hb, hx, hx', h3, memRead]
    · by_cases h2 : k = a
      · subst h2
        by_cases hx : x = k
        · subst hx
          by_cases hb : b = blankByte
          · simp [memWrite, hb, memRead_below (Nat.lt_succ_self x) hr]
          · simp [memWrite, hb, memRead]
        · have hx' : ¬ k = x := fun h => hx h.symm
          by_cases hb : b = blankByte
          · by_cases h3 : x < k
            · simp [memWrite, hb, hx, hx', h3, memRead, memRead_below (show x < k + 1 by omega) hr]
            · simp [memWrite, hb, hx, hx', h3, memRead]
          · simp [memWrite, hb, hx, hx', memRead]
      · by_cases h3 : k = x
        · subst h3
          simp [memWrite, h1, h2, memRead]
        · by_cases h4 : x < k
          · have hx : ¬ x = a := by omega
            simp [memWrite, h1, h2, memRead, h3, h4, hx]
          · simp [memWrite, h1, h2, memRead, h3, h4, ih]

/-- A read answers the last write to its byte; every other byte reads as before. -/
theorem memRead_memWrite {m : List Host.Cell} (h : memWf m = true) (a x : Nat) (b : Byte) :
    memRead (memWrite m a b) x = if x = a then b else memRead m x :=
  memRead_memWrite_sorted h

/-- Outside the bytes written, memory reads as before. -/
theorem memRead_memWriteBytes_of_outside : ∀ (bs : List Byte) {m : List Host.Cell} (_ : memWf m = true) (a x : Nat),
    x < a ∨ a + bs.length ≤ x → memRead (memWriteBytes m a bs) x = memRead m x
  | [], _, _, _, _, _ => rfl
  | b :: bs, m, h, a, x, hx => by
    simp only [List.length_cons] at hx
    have hxa : x ≠ a := by omega
    rw [memWriteBytes, memRead_memWriteBytes_of_outside bs (memWrite_wf a b h) (a + 1) x (by omega),
      memRead_memWrite h, if_neg hxa]

/-- Reading back the bytes just written. -/
theorem memReadBytes_memWriteBytes : ∀ (bs : List Byte) {m : List Host.Cell} (_ : memWf m = true) (a : Nat),
    memReadBytes (memWriteBytes m a bs) a bs.length = bs
  | [], _, _, _ => rfl
  | b :: bs, m, h, a => by
    have h1 := memWrite_wf a b h
    have ih := memReadBytes_memWriteBytes bs h1 (a + 1)
    simp only [List.length_cons, memReadBytes, memWriteBytes]
    rw [ih, memRead_memWriteBytes_of_outside bs h1 (a + 1) a (by omega), memRead_memWrite h, if_pos rfl]

/-- A cleared range reads blank; every other byte reads as before. -/
theorem memRead_memClear {lo n x : Nat} : ∀ {k : Nat} {m : List Host.Cell}, memSorted k m = true →
    memRead (memClear m lo n) x = if lo ≤ x ∧ x < lo + n then blankByte else memRead m x
  | _, [], _ => by simp [memClear, memRead]
  | _, (k, b) :: rest, hm => by
    simp only [memSorted, Bool.and_eq_true, decide_eq_true_eq, bne_iff_ne] at hm
    obtain ⟨⟨_, _⟩, hr⟩ := hm
    have ih := @memRead_memClear lo n x (k + 1) rest hr
    have hr' : memSorted (k + 1) (memClear rest lo n) = true := memSorted_filter _ hr
    by_cases hin : k < lo ∨ lo + n ≤ k
    · have hp : (decide (k < lo) || decide (lo + n ≤ k)) = true := by simpa using hin
      have e : memClear ((k, b) :: rest) lo n = (k, b) :: memClear rest lo n := by simp [memClear, hp]
      rw [e]
      by_cases h1 : k = x
      · subst h1
        have : ¬ (lo ≤ k ∧ k < lo + n) := by omega
        simp [memRead, this]
      · by_cases h2 : x < k
        · simp [memRead, h1, h2]
        · simp [memRead, h1, h2, ih]
    · have hp : ¬ (decide (k < lo) || decide (lo + n ≤ k)) = true := by simpa using hin
      have e : memClear ((k, b) :: rest) lo n = memClear rest lo n := by
        unfold memClear; exact List.filter_cons_of_neg (by simpa using hin)
      rw [e]
      by_cases h1 : k = x
      · subst h1
        have : lo ≤ k ∧ k < lo + n := by omega
        simp [ih, this]
      · by_cases h2 : x < k
        · rw [memRead_below (show x < k + 1 by omega) hr']
          simp [memRead, h1, h2]
        · simp [memRead, h1, h2, ih]

/-- Taking free bytes changes the counter of free values and nothing else. -/
theorem freeBytes_dev : ∀ (n : Nat) (d : Dev), (freeBytes d n).2 = { d with free := d.free + n }
  | 0, _ => rfl
  | n + 1, d => by
    rw [freeBytes]
    have ih := freeBytes_dev n { d with free := d.free + 1 }
    simp only [ih, Nat.add_assoc, Nat.add_comm 1 n]

/-- It answers as many bytes as asked. -/
theorem freeBytes_length : ∀ (n : Nat) (d : Dev), (freeBytes d n).1.length = n
  | 0, _ => rfl
  | n + 1, d => by
    rw [freeBytes]
    simp [freeBytes_length n { d with free := d.free + 1 }]

end Sys2Proof.Machine
end

