-- ==== Sys2Proof/Laws/Live.lean ====
section
/-! SUPPORT. Live accesses: which bytes one may change when it is performed, and what the bookkeeping of the L1 leaves alone. -/
namespace Sys2Proof.Machine

/-! ### STAGED bytes that are raced (R241) -/

/-- Freeing raced bytes changes memory and the counter of free values alone, keeps memory's canonical form, and leaves every byte that
is not raced or not in the range. -/
theorem freeMem_spec (raced : Nat → Bool) : ∀ (n a : Nat) (d : Dev), memWf d.mem = true → ∃ m k,
    freeMem raced a n d = { d with mem := m, free := k } ∧ memWf m = true ∧
      ∀ x, (a ≤ x → x < a + n → raced x = false) → memRead m x = memRead d.mem x
  | 0, _, d, h => ⟨d.mem, d.free, rfl, h, fun _ _ => rfl⟩
  | n + 1, a, d, h => by
    rw [freeMem]
    split
    · next hr =>
      obtain ⟨m, k, e, hm, hx⟩ := freeMem_spec raced n (a + 1)
        { d with mem := memWrite d.mem a (Config.freeByte d.free), free := d.free + 1 } (memWrite_wf _ _ h)
      refine ⟨m, k, by rw [e], hm, fun x hne => ?_⟩
      rw [hx x fun h1 h2 => hne (by omega) (by omega), memRead_memWrite h]
      split
      · next hax => subst hax; exact absurd hr (by simp [hne (Nat.le_refl _) (by omega)])
      · rfl
    · obtain ⟨m, k, e, hm, hx⟩ := freeMem_spec raced n (a + 1) d h
      exact ⟨m, k, e, hm, fun x hne => hx x fun h1 h2 => hne (by omega) (by omega)⟩

/-! ### What an operation may change -/

@[simp] theorem bytesOfNat_length : ∀ (n x : Nat), (bytesOfNat n x).length = n
  | 0, _ => rfl
  | n + 1, x => by simp [bytesOfNat, bytesOfNat_length n]

theorem atomMem_wf {m : List Host.Cell} (a : Nat) (op : AtomOp) (w x : Nat) (h : memWf m = true) : memWf (atomMem m a op w x) = true := by
  cases op <;> (unfold atomMem; exact memWriteBytes_wf _ _ h)

/-- An update of an arrival word writes its first eight bytes. -/
theorem countArrival_writes (m : List Host.Cell) (a n : Nat) : ∃ x, countArrival m a n = memWriteBytes m a (bytesOfNat 8 x) := by
  unfold countArrival
  dsimp only
  generalize (if targetOf m a = 0 then _ else _ : Nat × Nat) = p
  exact ⟨p.1 + 2 ^ 48 * p.2, rfl⟩

theorem countArrival_wf {m : List Host.Cell} (a n : Nat) (h : memWf m = true) : memWf (countArrival m a n) = true := by
  obtain ⟨x, e⟩ := countArrival_writes m a n
  rw [e]; exact memWriteBytes_wf _ _ h

theorem setArrivalStatus_wf {m : List Host.Cell} (a c : Nat) (h : memWf m = true) : memWf (setArrivalStatus m a c) = true := by
  unfold setArrivalStatus; dsimp only; split
  · exact memWriteBytes_wf _ _ h
  · exact h

/-- A live operation keeps the canonical form of memory. -/
theorem performOp_wf {m : List Host.Cell} (a : Nat) (op : LiveOp) (h : memWf m = true) : memWf (performOp m a op) = true := by
  unfold performOp
  split
  · exact memWriteBytes_wf _ _ h
  · exact memWriteBytes_wf _ _ h
  · exact atomMem_wf _ _ _ _ h
  · exact atomMem_wf _ _ _ _ h
  · exact h
  · exact h
  · exact countArrival_wf _ _ h
  · exact setArrivalStatus_wf _ _ h

/-- Outside `n` bytes, memory reads as before a write of at most `n` bytes. -/
theorem memRead_memWriteBytes_within {m : List Host.Cell} (h : memWf m = true) {bs : List Byte} {a n x : Nat} (hn : bs.length ≤ n)
    (hx : x < a ∨ a + n ≤ x) : memRead (memWriteBytes m a bs) x = memRead m x :=
  memRead_memWriteBytes_of_outside bs h a x (by omega)

/-- A live operation changes no byte outside its span (no ATOMR is an XADD32, R290). -/
theorem memRead_performOp_of_outside {m : List Host.Cell} (h : memWf m = true) (a : Nat) (op : LiveOp) (x : Nat)
    (hop : ∀ w o, op ≠ .atomr .xadd32 w o) (hx : x < a ∨ a + liveSpan op ≤ x) : memRead (performOp m a op) x = memRead m x := by
  unfold performOp
  split
  · exact memRead_memWriteBytes_within h le_rfl hx
  · exact memRead_memWriteBytes_within h le_rfl hx
  · next op w o =>
    unfold atomMem
    split
    · exact memRead_memWriteBytes_within h (by simp [liveSpan]) hx
    · next hne => exact memRead_memWriteBytes_within h (by simp [liveSpan]) hx
  · next op w o =>
    unfold atomMem
    split
    · exact absurd rfl (hop w o)
    · exact memRead_memWriteBytes_within h (by simp [liveSpan]) hx
  · rfl
  · rfl
  · next n =>
    obtain ⟨y, e⟩ := countArrival_writes m a n
    rw [e]; exact memRead_memWriteBytes_within h (by simp [liveSpan]) hx
  · unfold setArrivalStatus; dsimp only
    split
    · exact memRead_memWriteBytes_of_outside _ h _ x (by simp only [liveSpan, bytesOfNat_length] at *; omega)
    · rfl

/-! ### The L1 and the queue of live accesses -/

@[simp] theorem putCore_mem (d : Dev) (c : Nat) (x : Core) : (putCore d c x).mem = d.mem := by unfold putCore; split <;> rfl
@[simp] theorem putCore_liveq (d : Dev) (c : Nat) (x : Core) : (putCore d c x).liveq = d.liveq := by unfold putCore; split <;> rfl
@[simp] theorem dropLines_mem (d : Dev) (c : Nat) : (dropLines d c).mem = d.mem := by unfold dropLines; split <;> simp
@[simp] theorem dropLines_liveq (d : Dev) (c : Nat) : (dropLines d c).liveq = d.liveq := by unfold dropLines; split <;> simp
@[simp] theorem fillLines_mem (d : Dev) (c a n : Nat) : (fillLines d c a n).mem = d.mem := by unfold fillLines; split <;> simp
@[simp] theorem fillLines_liveq (d : Dev) (c a n : Nat) : (fillLines d c a n).liveq = d.liveq := by unfold fillLines; split <;> simp
@[simp] theorem holdStagedAt_mem (d : Dev) (c r : Nat) (w : Option Stamp) (a n : Nat) : (holdStagedAt d c r w a n).mem = d.mem := by
  unfold holdStagedAt; split <;> simp
@[simp] theorem refreshLines_mem (d : Dev) (c a n : Nat) : (refreshLines d c a n).mem = d.mem := by unfold refreshLines; split <;> simp
@[simp] theorem dropDieLines_mem (d : Dev) (c : Nat) : (dropDieLines d c).mem = d.mem := by unfold dropDieLines; split <;> simp
@[simp] theorem dropDieLines_liveq (d : Dev) (c : Nat) : (dropDieLines d c).liveq = d.liveq := by unfold dropDieLines; split <;> simp
@[simp] theorem acquireLines_mem (d : Dev) (c : Nat) (x : Scope) : (acquireLines d c x).mem = d.mem := by unfold acquireLines; split <;> simp
@[simp] theorem acquireLines_liveq (d : Dev) (c : Nat) (x : Scope) : (acquireLines d c x).liveq = d.liveq := by
  unfold acquireLines; split <;> simp
@[simp] theorem missLines_mem (d : Dev) (c a n : Nat) : (missLines d c a n).mem = d.mem := by unfold missLines; split <;> simp
@[simp] theorem seeCovered_mem (d : Dev) (k : ActKey) (n a : Nat) : (seeCovered d k n a).mem = d.mem := rfl
@[simp] theorem seeCovered_liveq (d : Dev) (k : ActKey) (n a : Nat) : (seeCovered d k n a).liveq = d.liveq := rfl
@[simp] theorem noteUses_mem (d : Dev) (q : LiveReq) : (noteUses d q).mem = d.mem := by unfold noteUses; split <;> rfl
@[simp] theorem noteUses_liveq (d : Dev) (q : LiveReq) : (noteUses d q).liveq = d.liveq := by unfold noteUses; split <;> rfl

/-- The cores' bookkeeping of a performed access leaves memory alone. -/
@[simp] theorem refreshAll_mem (s : State) (q : LiveReq) (d : Dev) : (refreshAll s q d).mem = d.mem := by
  unfold refreshAll
  generalize List.range 32 = l
  induction l generalizing d with
  | nil => rfl
  | cons c l ih =>
    rw [List.foldl_cons, ih]
    split
    · simp
    · split <;> simp

/-- The settled reads of an activation change no register of it. -/
@[simp] theorem settleReads_s (a : Act) : (settleReads a).s = a.s := rfl
@[simp] theorem settleReads_v (a : Act) : (settleReads a).v = a.v := rfl
@[simp] theorem settleReads_seq (a : Act) : (settleReads a).seq = a.seq := rfl
@[simp] theorem settleReads_key (a : Act) : (settleReads a).key = a.key := rfl

/-- A satisfied condition changes the lines, the writes it grants and the settled reads, and nothing else. -/
@[simp] theorem waitMet_mem (c : WaitCond) (s : State) : (waitMet c s).dev.mem = s.dev.mem := by
  unfold waitMet; split
  · dsimp only; split <;> simp
  · rfl
@[simp] theorem waitMet_liveq (c : WaitCond) (s : State) : (waitMet c s).dev.liveq = s.dev.liveq := by
  unfold waitMet; split
  · dsimp only; split <;> simp
  · rfl
@[simp] theorem waitMet_s (c : WaitCond) (s : State) : (waitMet c s).act.s = s.act.s := by unfold waitMet; split <;> rfl
@[simp] theorem waitMet_seq (c : WaitCond) (s : State) : (waitMet c s).act.seq = s.act.seq := by unfold waitMet; split <;> rfl
@[simp] theorem waitMet_act0 (c : WaitCond) (s : State) : (waitMet c s).act0 = s.act0 := by unfold waitMet; split <;> rfl
@[simp] theorem waitMet_iss (c : WaitCond) (s : State) : (waitMet c s).iss = s.iss := by unfold waitMet; split <;> rfl

/-- Uses that are forgotten leave the memory and what is on its way. -/
@[simp] theorem forgetUses_mem (s : State) (n : Nat) (st : Stamp) : (forgetUses s n st).dev.mem = s.dev.mem := by
  unfold forgetUses; split <;> rfl
@[simp] theorem forgetUses_liveq (s : State) (n : Nat) (st : Stamp) : (forgetUses s n st).dev.liveq = s.dev.liveq := by
  unfold forgetUses; split <;> rfl
@[simp] theorem forgetUses_act (s : State) (n : Nat) (st : Stamp) : (forgetUses s n st).act = s.act := by
  unfold forgetUses; split <;> rfl

/-- A key is its own kin. -/
@[simp] theorem kin_self (k : ActKey) : kin k k = true := by simp [kin]

/-- Activations of a stamp that run beside one another change where they read from, and nothing else. -/
@[simp] theorem readAtHome_mem (s : State) (k : ActKey) : (readAtHome s k).dev.mem = s.dev.mem := rfl
@[simp] theorem readAtHome_liveq (s : State) (k : ActKey) : (readAtHome s k).dev.liveq = s.dev.liveq := rfl

/-- A line that PREF fetches changes no byte of memory and nothing that is on its way. -/
@[simp] theorem prefLine_mem (d : Dev) (c r : Nat) (m : MemMode) (x : Nat) : (prefLine d c r m x).mem = d.mem := by
  unfold prefLine; split <;> simp
@[simp] theorem prefLine_liveq (d : Dev) (c r : Nat) (m : MemMode) (x : Nat) : (prefLine d c r m x).liveq = d.liveq := by
  unfold prefLine; split <;> simp

/-- A fetched sector is no sector whose bytes a live load reads (R296). -/
theorem prefSector_l1 (m : MemMode) (r : Nat) (c : Core) (x : Nat) : (prefSector m r c x).l1 = c.l1 := by
  unfold prefSector
  cases h : hasWay c x
  · rfl
  · cases m
    · rfl
    · rfl
    · simp only [Bool.not_true, Bool.false_eq_true, if_false, holdStaged, makeWay, h, if_true]
      split <;> rfl
    · simp only [Bool.not_true, Bool.false_eq_true, if_false]
      split <;> rfl

theorem putAct_mem (s : State) (a : Act) : (putAct s a).dev.mem = s.dev.mem := by unfold putAct; split <;> rfl

theorem prefByte_mem (s : State) (p : Nat) : (prefByte s p).dev.mem = s.dev.mem := by
  unfold prefByte; split
  · exact prefLine_mem ..
  · rfl

theorem prefByte_act (s : State) (p : Nat) : (prefByte s p).act = s.act := by unfold prefByte; split <;> rfl

/-- PREF changes no memory, and of its activation the SEQ only (R296). -/
theorem prefBytes_mem (l : List Nat) (s : State) :
    (l.foldl prefByte s).dev.mem = s.dev.mem ∧ (l.foldl prefByte s).act = s.act := by
  induction l generalizing s with
  | nil => exact ⟨rfl, rfl⟩
  | cons p l ih =>
    obtain ⟨h, g⟩ := ih (prefByte s p)
    exact ⟨h.trans (prefByte_mem s p), g.trans (prefByte_act s p)⟩

theorem requestPreempt_mem (s : State) (c k : Nat) : (requestPreempt s c k).1.dev.mem = s.dev.mem := by
  unfold requestPreempt
  split
  · split <;> split <;> first | exact putAct_mem .. | rfl
  · rfl

/-- What a commit does with the CSR writes of its bundle changes no memory. -/
theorem settleCsrs_mem (s : State) : (settleCsrs s).dev.mem = s.dev.mem := by
  unfold settleCsrs
  split
  · rfl
  · unfold sendRequest
    split
    · dsimp only
      split <;> exact requestPreempt_mem ..
    · rfl

theorem orphanTrap_mem (s : State) (a : Act) (r : TrapRec) : (orphanTrap s a r).dev.mem = s.dev.mem := by
  unfold orphanTrap; split <;> rfl

theorem orphanTrap_act (s : State) (a : Act) (r : TrapRec) : (orphanTrap s a r).act = s.act := by
  unfold orphanTrap; split <;> rfl

/-- Traps that wait for handlers change nothing but the list they stand in. -/
theorem orphanTraps_mem (l : List TrapRec) (s : State) (a : Act) :
    (l.foldl (fun s r => orphanTrap s a r) s).dev.mem = s.dev.mem ∧ (l.foldl (fun s r => orphanTrap s a r) s).act = s.act := by
  induction l generalizing s with
  | nil => exact ⟨rfl, rfl⟩
  | cons p l ih =>
    obtain ⟨h, g⟩ := ih (orphanTrap s a p)
    exact ⟨h.trans (orphanTrap_mem s a p), g.trans (orphanTrap_act s a p)⟩

/-- Where no other activation of its stamp has run beside it, an activation reads with the lines of its own core. -/
theorem liveCore_alone {a : Act} (h : a.atHome = false) : liveCore a = actCore a := by simp [liveCore, h]

/-- Before it is performed at its home, no access counts as performed at device scope or wider. -/
theorem performedTo_wide {c : Scope} (h : scopeLevel c = 3) (core : Nat) (q : LiveReq) : performedTo c core q = false := by
  simp only [performedTo, reaches, h, Bool.and_eq_false_iff, decide_eq_false_iff_not, Bool.or_eq_false_iff]
  by_cases h1 : q.reach = 1
  · exact .inr (by omega)
  · by_cases h2 : q.reach = 2
    · exact .inr (by omega)
    · exact .inl (.inr ⟨.inl h1, .inl h2⟩)

/-- After an acquire the core holds no live line, so a read finds the home and what has reached the core. -/
theorem coreLines_dropLines (d : Dev) (c : Nat) : coreLines (dropLines d c) c = [] := by
  unfold coreLines dropLines putCore getCore
  by_cases h : c < 32 <;> simp [h]

/-! ### What a performed access needs -/

/-- An access is performed only after the earlier accesses of its activation to its words, and only where no FENCE or LDACQ stands
before it. -/
theorem mayPerform_order {d : Dev} {n : Nat} {q : LiveReq} (h : mayPerform d n q = true) {x : LiveReq} (hx : x ∈ earlierOwn d.liveq n q) :
    sameWord x q = false ∧ (∀ c, x.op ≠ .fence c) ∧ ∀ c, x.op ≠ .acquire c := by
  simp only [mayPerform, inOrder, Bool.and_eq_true, List.all_eq_true] at h
  have := h.1.1.1.1 x hx
  exact ⟨by simpa using h.1.2 x hx, fun c hc => by simp [hc] at this, fun c hc => by simp [hc] at this⟩

end Sys2Proof.Machine
end

