-- ==== Sys2Proof/Tests/Slice0.lean ====
section
/-! SUPPORT. Tests: terms the field rules refuse, words written out from the encoding tables, small one-step results taken
from the manual, and a witness for the hypotheses of every claim. -/
namespace Sys2Proof.Machine.Tests
open Sys2Proof Sys2Proof.Machine

/-! ## WellFormed: one term that each check refuses -/

/-- R65, R64: rounding codes of integer arithmetic, float-only and integer-only members, relations, conversions. -/
theorem test_wf_vectors : [Instr.vadd (.clk 0) 1 2 3 .i32 .rne, .vfma (.clk 0) 1 2 3 .i32 .dyn, .vsqrt (.clk 0) 1 2 .i8 .dyn,
    .vcmp (.clk 0) 1 2 3 .f32 .ltn, .vcmp (.clk 0) 1 2 3 .i32 .un, .vcvt (.clk 0) 1 2 .f32 .f32 .dyn,
    .vcvt (.clk 0) 1 2 .x128 .f32 .dyn, .vcvt (.clk 0) 1 2 .i32 .x128 .dyn, .vshiftShl (.clk 0) 1 2 3 .f16,
    .vunaryClass (.clk 0) 1 2 .i64, .vunaryClz (.clk 0) 1 2 .f64, .vredSum (.clk 0) 1 2 .i16 .sat, .vredAnd (.clk 0) 1 2 .f32,
    .vredFsumx (.clk 0) 1 2 .i32 .dyn].all (fun i => !i.wf) = true := by decide

/-- R36, R102, R112, R127, R133, R218, R350: CSR numbers, LEN, clocks, qualifiers, packets and MMAS's feed. -/
theorem test_wf_control : [Instr.csrr (.clk 0) 1 0x018, .csrw (.clk 0) 1 0x010, .csrs (.clk 0) 1 0x040, .loop (.clk 0) 1 0,
    .loopi (.clk 0) 4 0, .clkon (.clk 0) 0 1, .clkoff (.clk 3) 3 1, .clkon .first 2 1, .clksplit (.clk 0) 13 1,
    .clksplit (.clk 5) 4 1, .clkundef (.clk 0) 0, .whenScalar (.clk 0) 1 2, .currVector .last 1 2, .mergeScalar .first 1 2 3,
    .mmasW0 (.clk 0) 0 7 1, .queuePush 0 0 []].all (fun i => !i.wf) = true := by decide

/-- Terms beside those that are refused. -/
theorem test_wf_accepts : [Instr.vadd (.clk 0) 1 2 3 .i32 .sat, .vcvt (.clk 0) 1 2 .f64 .x128 .dyn, .csrr (.clk 0) 1 0x017,
    .csrw (.clk 0) 1 0x002, .loopi (.clk 0) 0 1, .clksplit (.clk 0) 12 1, .clkundef (.clk 1) 1, .whenVector (.clk 1) 1 2,
    .mmasW1 (.clk 0) 0 6 1, .csrr (.clk 0) 1 0x100].all Instr.wf = true := by decide

/-! ## Words of every family, from the encoding tables (R50-R66) -/

/-- S, K, OP and D, A, B, F of a word of the R layout. -/
def word (k op d a b f : Nat) : BitVec 32 :=
  BitVec.ofNat 32 (2 ^ 31 + k * 2 ^ 27 + op * 2 ^ 21 + d * 2 ^ 16 + a * 2 ^ 11 + b * 2 ^ 6 + f)

/-- What a word with its stop bit decodes to. -/
def reads (w : BitVec 32) (i : Instr) : Bool := decodeWord w = some { stop := true, instr := i }

theorem test_words_scalar : (reads (word 0 0 5 6 7 13) (.maxn (.clk 0) 5 6 7) && reads (word 13 0 31 0 1 22) (.padd (.clk 13) 31 0 1)
    && reads (word 0 1 1 2 3 6) (.remn (.clk 0) 1 2 3) && reads (word 0 6 1 2 0 63) (.shli (.clk 0) 1 2 63)
    && reads (word 0 0x0C 9 0 1 2) (.csrr (.clk 0) 9 0x042) && reads (word 0 0x0F 0 9 4 0) (.csrc (.clk 0) 9 0x100)) = true := by decide

theorem test_words_control : (reads (word 0 0x11 31 31 31 63) (.jal (.clk 0) 0x1FFFFF) && reads (word 0 0x12 30 29 0 1) (.jalr (.clk 0) 30 29 1)
    && reads (word 0 0x13 0 7 16 2) (.loop (.clk 0) 7 0x402) && reads (word 0 0x15 3 5 0 0) (.lidx (.clk 0) 3 5)
    && reads (word 14 0x16 0 0 0 1) (.yield .first) && reads (word 0 0x17 0 7 0 4) (.waitFeed (.clk 0) 7)
    && reads (word 0 0x18 0 0 1 0) (.trap (.clk 0) 64) && reads (word 0 0x3D 0 1 2 1) (.kill (.clk 0) 1 2)
    && reads (word 0 0x3D 0 0 0 7) (.halt (.clk 0))) = true := by decide

theorem test_words_clocks : (reads (word 3 0x19 5 2 0 0) (.clkon (.clk 3) 5 2) && reads (word 0 0x19 4 13 0 3) (.clkq (.clk 0) 4 13)
    && reads (word 0 0x19 13 0 0 4) (.clkundef (.clk 0) 13) && reads (word 2 0x1A 1 2 0 3) (.currVector (.clk 2) 1 2)
    && reads (word 0 0x1B 1 2 3 1) (.mergeVector (.clk 0) 1 2 3)) = true := by decide

theorem test_words_vector : (reads (word 0 0x1C 1 2 3 48) (.vadd (.clk 0) 1 2 3 .f32 .dyn)
    && reads (word 0 0x21 31 30 29 61) (.vfnma (.clk 0) 31 30 29 .f64 .rna) && reads (word 0 0x24 1 2 3 2) (.vminmax (.clk 0) 1 2 3 .i8 .minimum)
    && reads (word 0 0x25 1 2 3 38) (.vcmp (.clk 0) 1 2 3 .f16 .un) && reads (word 0 0x28 1 2 3 27) (.vshiftRotr (.clk 0) 1 2 3 .i64)
    && reads (word 0 0x29 1 2 7 40) (.vunaryRsqe (.clk 0) 1 2 .bf16) && reads (word 0 0x2B 1 2 3 52) (.vperm (.clk 0) 1 2 3 .w64)
    && reads (word 0 0x2C 1 2 2 54) (.vredFsumx (.clk 0) 1 2 .f32 .rtz)) = true := by decide

theorem test_words_memory : (reads (word 0 0x2F 1 2 27 63) (.ld (.clk 0) 1 2 .n32 0xFF) && reads (word 0 0x31 1 7 4 0) (.vldFeedPop (.clk 0) 1 7)
    && reads (word 0 0x32 1 7 0 2) (.vst (.clk 0) 1 7 2) && reads (word 0 0x35 1 2 0 36) (.ldt (.clk 0) 1 2 .c4 .vector)
    && reads (word 0 0x36 0 2 3 8) (.xadd32 (.clk 0) 2 3) && reads (word 0 0x37 1 2 3 4) (.fetchmax (.clk 0) 1 2 3 .w32)
    && reads (word 0 0x38 0 0 0 26) (.fence (.clk 0) .system) && reads (word 0 0x3A 7 3 0 0) (.fbind (.clk 0) 7 3)) = true := by decide

theorem test_words_engine_matrix : (reads (word 0 0x2E 1 2 3 1) (.spawnc (.clk 0) 1 2 3) && reads (word 0 0x39 4 2 3 1) (.cpysum (.clk 0) 4 2 3)
    && reads (word 0 0x3B 15 6 3 3) (.mmasW1 (.clk 0) 15 6 3) && reads (word 0 0x3C 1 15 0 5) (.astat (.clk 0) 1 15)
    && reads (word 0 0x3E 1 2 3 28) (.aread (.clk 0) 1 2 3 (.e4m3 .rdn))) = true := by decide

/-- A sub-code beyond a group's, a register beyond its file, a field that must be zero, an undefined code. -/
theorem test_words_undefined : [word 0 0x39 0 0 0 4, word 0 0x3C 0 16 0 5, word 0 0x1B 1 2 3 2, word 0 0x25 1 2 3 6, word 0 0x0B 1 1 0 0,
    word 15 0x1B 1 2 3 0, word 1 0x3F 0 0 0 0, 0x86C073F0#32].all (fun w => (decodeWord w).isNone) = true := by decide
/-! ## Numbers: the worked examples of R79 and of the e4m3 table below R87 -/

/-- 448, 464, 465, -1000, minus infinity, 2^-10 and a quiet NaN under RNE: result and flags (NV 16, DZ 8, OF 4, UF 2, NX 1). -/
theorem test_e4m3_rne : ([0x43E00000, 0x43E80000, 0x43E88000, 0xC47A0000, 0xFF800000, 0x3A800000, 0x7FC00000].map fun x =>
    let r := convert (.flt fmtF32) (.flt fmtE4M3) .rne x; (r.1, flagsNat r.2)) =
    [(0x7E, 0), (0x7E, 1), (0x7F, 5), (0xFF, 5), (0xFF, 16), (0, 3), (0x7F, 0)] := by decide

/-- The same values under SAT. -/
theorem test_e4m3_sat : ([0x43E00000, 0x43E80000, 0x43E88000, 0xC47A0000, 0xFF800000, 0x3A800000, 0x7FC00000].map fun x =>
    let r := convert (.flt fmtF32) (.flt fmtE4M3) .sat x; (r.1, flagsNat r.2)) =
    [(0x7E, 0), (0x7E, 1), (0x7E, 5), (0xFE, 5), (0xFE, 1), (0, 3), (0x7F, 0)] := by decide

/-- R79: -0.3, 255.6 (twice) and -0.6 into n8. -/
theorem test_n8 : ([(0xBE99999A, Mode.rne), (0x437F999A, .rtz), (0x437F999A, .rne), (0xBF19999A, .rne)].map fun x =>
    let r := convert (.flt fmtF32) (.int false 8) x.2 x.1; (r.1, flagsNat r.2)) = [(0, 1), (255, 1), (255, 16), (0, 16)] := by decide

/-! ## States for the witnesses -/

/-- The state before a bundle of one slot word, as `withFetchWord` places it. -/
def placed : State :=
  let s := beginIssue (placeWord State.reset 0x80400000#32)
  { s with iss := { s.iss with words := [0x80400000#32] } }

/-- Every register of an activation on k0. -/
def onK0 (a : Act) : Act :=
  { a with sTag := (Vector.replicate 32 (0 : Tag)).set 0 30, vTag := Vector.replicate 32 0, eTag := Vector.replicate 8 0 }

/-- The activation and its copy before the bundle changed alike. -/
def withAct (f : Act → Act) (s : State) : State := { s with act := f s.act, act0 := f s.act }

/-- The device and its copy before the bundle changed alike. -/
def withDev (f : Dev → Dev) (s : State) : State := { s with dev := f s.dev, dev0 := f s.dev }

/-- Scalar registers set. -/
def withS (l : List (SReg × Word)) (s : State) : State :=
  withAct (fun a => { a with s := l.foldl (fun v p => v.set p.1.val p.2) a.s }) s

def base : State := withAct onK0 placed

/-- The slot takes effect with results on k0. -/
def runs (s : State) (i : Instr) : Bool := structural s i = .go 0 true && !awaited s.act0 i

/-- Code of three bundles of one slot each. -/
def threeBundles : List Byte := bytesOfWord 0x80400000#32 ++ bytesOfWord 0x80400000#32 ++ bytesOfWord 0x80400000#32

/-- A tensor of one tile. -/
def tensor (h : Nat) (o : Order) : Tensor :=
  { handle := h, fmt := .i64, blocked := false, order := o, lc := 0, vault := if o = .ordered then some 0 else none, size := 65536, exts := [8192], ntiles := 1
    readers := none, writers := if o = .staged then some [0] else none }

/-- The placed image with a task on a gated clock, two cells and a tensor of each ORDER. -/
def worldImage : Image :=
  { fetchImage threeBundles with
    tasks := [fetchTask, fetchHandler, { num := 2, entry := 4, clock := 1, width := 1, feeds := 0, tiles := [], array := false, handler := false }]
    clocks := [{ num := 0, parent := 0, cell := none }, { num := 1, parent := 0, cell := some 0 }]
    conds := [{ num := 0, p := 128, pin := false, ahead := false }, { num := 1, p := 128, pin := false, ahead := true }]
    tensors := [tensor 1 .ordered, tensor 2 .staged, tensor 3 .live] }

/-- The table of a tensor whose tile stands in a frame. -/
def table (h : Nat) (o : Order) (f : Nat) : TensorTable :=
  let l := [(0, { loft := o = .ordered, order := orderCode o, lc := 0, w := true, v := true, frame := f, reserved := 0 : TileEntry })]
  { handle := h, ttab := 0, entries := l, view := l }

def worldRun : Run :=
  { fetchRun [] with image := worldImage, tables := [table 1 .ordered 0, table 2 .staged 1, table 3 .live 2], hbmFrames := [1, 2], loftFrames := [0], allowance := 8 }

/-- `base` with that run. -/
def world : State := withDev (fun d => { d with runs := [worldRun] }) base

/-- A pointer into a tensor. -/
def ptr (h off : Nat) : Word := BitVec.ofNat 64 (2 ^ 63 + h * 2 ^ 44 + off)

/-- `world` with an activation whose instant lies above the ridge: the placed one waits beside it. -/
def ahead : State :=
  withAct (fun a => { a with key := .ordinary 0 ⟨1, 0, 0⟩, stamp := ⟨1, 0, 0⟩ })
    (withDev (fun d => { d with others := { fetchAct with place := none, status := .pending } :: d.others }) world)

def okAt (s : State) (n : Word) (size align : Nat) (k : AccKind) (w : Bool) (m : MemMode) : Bool :=
  match locate s s.act0 n.toNat size align k w 0 with
  | .ok l => l.mode = m
  | .error _ => false

def errAt (s : State) (n : Word) (size align : Nat) (k : AccKind) (w : Bool) (c : Nat) : Bool :=
  match locate s s.act0 n.toNat size align k w 0 with
  | .ok _ => false
  | .error e => e.code = c

/-! ## A witness for the hypotheses of every claim -/

/-- ScalarAluResults: a sum on a tensor's last byte and one beyond it, a code-window pointer, a sum over a window. -/
theorem wit_ScalarAluResults : ([Instr.add (.clk 0) 5 6 7, .sub (.clk 0) 5 6 7, .and (.clk 0) 5 6 7, .or (.clk 0) 5 6 7, .xor (.clk 0) 5 6 7,
    .andn (.clk 0) 5 6 7, .shl (.clk 0) 5 6 7, .shr (.clk 0) 5 6 7, .sar (.clk 0) 5 6 7, .rotr (.clk 0) 5 6 7, .min (.clk 0) 5 6 7,
    .max (.clk 0) 5 6 7, .minn (.clk 0) 5 6 7, .maxn (.clk 0) 5 6 7, .seq (.clk 0) 5 6 7, .sne (.clk 0) 5 6 7, .slt (.clk 0) 5 6 7,
    .sltn (.clk 0) 5 6 7, .sel (.clk 0) 5 6 7, .clz (.clk 0) 5 6, .ctz (.clk 0) 5 6, .popc (.clk 0) 5 6, .padd (.clk 0) 5 6 7].all (runs base)
    && (let good := fun (x y : Word) => let sum : Int := (x.toNat : Int) + y.toInt
          decide (x.toNat / 2 ^ 62 ≠ 3 ∧ 0 ≤ sum ∧ sum < 2 ^ 64 ∧ sum.toNat / 2 ^ 62 = x.toNat / 2 ^ 62 ∧
            (x.toNat / 2 ^ 62 = 2 → sum.toNat / 2 ^ 44 = x.toNat / 2 ^ 44))
        good (ptr 1 0) (2 ^ 44 - 1) && !good (ptr 1 0) (2 ^ 44) && !good (3 * 2 ^ 62) 0 && !good 0 (-1) && good (2 ^ 62 - 1) 0
          && !good (2 ^ 62 - 1) 1)) = true := by decide

/-- MultiplyDivideAndImmediates: with no extension, with one and with two. -/
theorem wit_MultiplyDivideAndImmediates : ([[], [5], [5, 6]].all fun l =>
    [Instr.mul (.clk 0) 5 6 7, .mulh (.clk 0) 5 6 7, .mulhn (.clk 0) 5 6 7, .div (.clk 0) 5 6 7, .divn (.clk 0) 5 6 7, .rem (.clk 0) 5 6 7,
      .remn (.clk 0) 5 6 7, .addi (.clk 0) 5 6 7, .andi (.clk 0) 5 6 7, .ori (.clk 0) 5 6 7, .xori (.clk 0) 5 6 7, .shli (.clk 0) 5 6 63,
      .shri (.clk 0) 5 6 63, .sari (.clk 0) 5 6 63, .slti (.clk 0) 5 6 7, .sltni (.clk 0) 5 6 7, .li (.clk 0) 5 7].all
      (runs { base with iss := { base.iss with ext := l } })) = true := by decide

/-- A steward slot in focus, ready, with its registers on k0. -/
def steward : State :=
  withAct (fun _ => { onK0 (Act.steward 0 0) with status := .ready })
    { world with dev := { world.dev with others := world.act :: world.dev.others.filter fun a => a.key ≠ .steward 0 0 } }

def stewardBase : State := { steward with dev0 := steward.dev }

/-- ControlRegisters: an activation of a run in a slot, and a steward slot for the privileged registers. -/
theorem wit_ControlRegisters : (([0x000, 0x001, 0x002, 0x010, 0x011, 0x012, 0x013, 0x014, 0x015, 0x016, 0x017, 0x020, 0x02B, 0x030, 0x040, 0x041,
      0x042, 0x043, 0x044].all fun n => runs world (.csrr (.clk 0) 5 n))
    && [Instr.csrw (.clk 0) 5 0x000, .csrs (.clk 0) 5 0x000, .csrc (.clk 0) 5 0x002].all (runs world)
    && [Instr.csrr (.clk 0) 5 0x100, .csrr (.clk 0) 5 0x101, .csrw (.clk 0) 5 0x100, .csrs (.clk 0) 5 0x100, .csrc (.clk 0) 5 0x100].all (runs stewardBase)
    && (actRun (before world) world.act0).isSome && world.act0.place.isSome && stewardBase.act0.place.isSome) = true := by decide

/-- BranchesAndCalls: targets inside the code section and just outside it, a misaligned JALR. -/
theorem wit_BranchesAndCalls : ([Instr.br (.clk 0) 2, .br (.clk 0) 3, .br (.clk 0) 0x1FFFFF, .jal (.clk 0) 2, .jalr (.clk 0) 5 6 0].all (runs world)
    && decide ((codeOf world world.act0).length = 12) && decide (((0x1FFFFF : BitVec 21).toInt) = -1)
    && decide ((readS (withS [(6, 2)] world).act0 6).toNat % 4 ≠ 0)) = true := by decide

/-- Loop levels for the witnesses. -/
def level (c i : Word) (start len : Nat) : Level := { count := c, index := i, start := start, len := len }

def looping (l : List Level) (p : Bool) : State := withAct (fun a => { a with loops := l, passEnd := p }) world

/-- Loops: a full stack, the last bundle of the innermost body, a body that goes on, none, and the ends of passes. -/
theorem wit_Loops : ([Instr.loop (.clk 0) 5 2, .loopi (.clk 0) 0 2, .loopi (.clk 0) 3 2, .lidx (.clk 0) 5 0, .lbrk (.clk 0), .lnext (.clk 0),
      .ldepth (.clk 0) 5].all (fun i => [looping [] false, looping (List.replicate 6 (level 2 0 0 3)) false, looping [level 2 0 0 1] false].all
        fun s => runs s i)
    && decide (bodyLast threeBundles (level 2 0 0 1) = world.act0.pc) && decide (bodyLast threeBundles (level 2 0 0 3) ≠ world.act0.pc)
    && decide (bodyLast threeBundles (level 2 1 4 2) = bodyLast threeBundles (level 2 0 0 3))
    && (looping [level 2 1 4 2, level 2 0 0 3] true).act.passEnd) = true := by decide

/-- A bound feed. -/
def feed (out : Bool) (pos : Nat) (buf : List FeedEntry) (fault : Option (Nat × Nat)) : Feed :=
  { raw := List.replicate 64 0, batten := { ptr := (ptr 2 0).toNat, fmt := .i64, out := out, dims := [(64, 8)] }, pos := pos, buf := buf, seq := 0, bound := 0
    fault := fault, nextAt := 0 }

def withFeed (f : Feed) (s : State) : State := withAct (fun a => { a with feeds := a.feeds.set 0 (some f) }) s

def entry : FeedEntry := { data := 1, fault := none }

/-- SequenceAndWaits: waits that hold and waits that do not, on live words, at the ridge, on feeds. -/
theorem wit_SequenceAndWaits : (
    let live := withS [(6, ptr 3 0), (7, 1)] world
    [Instr.nop (.clk 0), .yield (.clk 0), .halt (.clk 0)].all (runs stewardBase)
    && [Instr.endAct (.clk 0), .brk (.clk 0), .trap (.clk 0) 7, .waitGen (.clk 0) 6 7, .waitEq (.clk 0) 6 7, .waitGe (.clk 0) 6 7, .waitRidge (.clk 0)].all (runs live)
    && (checkEndFeeds world.act0).isNone && !engineBusy world.dev0 world.act0.key && !arrayBusy world.dev0 world.act0
    && okAt live (ptr 3 0) 16 16 .liveOnly false .live && okAt live (ptr 3 8) 8 8 .liveOnly false .live && !liveBlocked (before live) live.dev0 live.act0 && !atomPending live.dev0 live.act0.key 131072 8
    && atRidge (before world) world.act0 && !atRidge (before ahead) ahead.act0 && runs ahead (.waitRidge (.clk 0))
    && [withFeed (feed false 0 [entry] none) world, withFeed (feed false 0 [] none) world, world].all (fun s => runs s (.waitFeed (.clk 0) 0))
    && feedUsable (withFeed (feed false 0 [entry] none) world).act0 0 && !feedUsable (withFeed (feed false 0 [] none) world).act0 0) = true := by decide

/-- Clocks: k2 under k1 under k0, a scalar and a vector register on k1. -/
def clocked : State :=
  withAct (fun a => { a with
    clocks := (a.clocks.set 1 { defd := true, parent := 0, role := 1, pres := true }).set 2 { defd := true, parent := 0, role := 2, pres := false }
      |>.set 3 { defd := true, parent := 1, role := 0, pres := true }
    sTag := a.sTag.set 7 1 |>.set 8 2 |>.set 9 30, vTag := a.vTag.set 7 1 |>.set 8 2 }) world

theorem wit_Clocks : ([Instr.clkon (.clk 0) 4 5, .clkoff (.clk 0) 1 5, .clksplit (.clk 0) 1 5, .clkundef (.clk 0) 1, .clkundef (.clk 0) 13,
      .clkq (.clk 0) 5 1].all (runs clocked)
    && clocked.act.clocks[1].defd && !clocked.act.clocks[13].defd && descends clocked.act0 1 14 3 && !descends clocked.act0 1 14 2
    && decide (structural clocked (.whenScalar (.clk 1) 5 6) = .go 1 true) && decide (structural clocked (.whenVector (.clk 1) 5 6) = .go 1 true)
    && runs clocked (.currScalar (.clk 0) 5 7) && runs clocked (.currVector (.clk 0) 5 7)
    && runs clocked (.mergeScalar (.clk 0) 5 7 8) && runs clocked (.mergeScalar (.clk 0) 5 9 8) && runs clocked (.mergeVector (.clk 0) 5 7 8)
    && decide ((tagS clocked.act0 9).toNat = 30 ∧ (tagS clocked.act0 8).toNat = 2)) = true := by decide

/-- VectorAddSubMul and VectorFusedDivideRoot: float and integer lanes; enabled flags raised and not. -/
theorem wit_VectorArithmetic : ([LaneType.f16, .bf16, .f32, .f64].all (fun t => [Instr.vadd (.clk 0) 5 6 7 t .dyn, .vsub (.clk 0) 5 6 7 t .sat,
      .vmul (.clk 0) 5 6 7 t .rup, .vfma (.clk 0) 5 6 7 t .dyn, .vfms (.clk 0) 5 6 7 t .dyn, .vfnma (.clk 0) 5 6 7 t .dyn, .vdiv (.clk 0) 5 6 7 t .dyn,
      .vsqrt (.clk 0) 5 6 t .dyn, .vscalb (.clk 0) 5 6 7 t .dyn].all (runs world))
    && [LaneType.i8, .i16, .i32, .i64].all (fun t => [Instr.vadd (.clk 0) 5 6 7 t .dyn, .vsub (.clk 0) 5 6 7 t .sat, .vmul (.clk 0) 5 6 7 t .sat].all (runs world))
    && !trapsOn (enables world.act0) (fDiv fmtF32 .rne 0 0).2 && trapsOn (enables { world.act0 with fpc := 0x1001 }) (fDiv fmtF32 .rne 0 0).2) = true := by decide

/-- VectorCompareSelectConvert: both lane kinds, the three width cases and x128. -/
theorem wit_VectorCompareSelectConvert : ([Instr.vminmax (.clk 0) 5 6 7 .f32 .maximum, .vminmax (.clk 0) 5 6 7 .i8 .minNum, .vcmp (.clk 0) 5 6 7 .f64 .un,
      .vcmp (.clk 0) 5 6 7 .i64 .len, .vcvt (.clk 0) 5 6 .f32 .e4m3 .dyn, .vcvt (.clk 0) 5 6 .e4m3 .f32 .sat, .vcvt (.clk 0) 5 6 .i32 .f32 .rtz,
      .vcvt (.clk 0) 5 6 .f32 .x128 .dyn, .vcvt (.clk 0) 5 6 .f64 .x128 .dyn].all (runs world)
    && trapsOn 1 (convert (.flt fmtF32) (.flt fmtE4M3) .rne 0x43E80000).2
    && trapsOn 1 (readout 125 fmtF32 .rne { v := 2 ^ 25 + 1, sp := {} } 0).2 && !trapsOn 1 (readout 125 fmtF32 .rne { v := 1, sp := {} } 0).2) = true := by decide

set_option exponentiation.threshold 4096 in
/-- VectorBitsShiftsAndUnary, VectorLaneOperations, VectorReductions, ExactAccumulation. -/
theorem wit_VectorOthers : ([Instr.vbitAnd (.clk 0) 5 6 7, .vbitOr (.clk 0) 5 6 7, .vbitXor (.clk 0) 5 6 7, .vbitAndn (.clk 0) 5 6 7, .vbitNot (.clk 0) 5 6,
      .vshiftShl (.clk 0) 5 6 7 .i8, .vshiftShr (.clk 0) 5 6 7 .i16, .vshiftSar (.clk 0) 5 6 7 .i32, .vshiftRotr (.clk 0) 5 6 7 .i64,
      .vunaryAbs (.clk 0) 5 6 .f32, .vunaryNeg (.clk 0) 5 6 .i32, .vunaryClass (.clk 0) 5 6 .f16, .vunaryGetexp (.clk 0) 5 6 .f64, .vunaryClz (.clk 0) 5 6 .i8,
      .vunaryPopc (.clk 0) 5 6 .i64, .vunaryRcpe (.clk 0) 5 6 .f32, .vunaryRsqe (.clk 0) 5 6 .bf16,
      .vsel (.clk 0) 5 6 7 .w8, .vbcast (.clk 0) 5 6 .w16, .vext (.clk 0) 5 6 7 .w32, .vins (.clk 0) 5 6 7 .w64, .vperm (.clk 0) 5 6 7 .w8,
      .vslideup (.clk 0) 5 6 7 .w8, .vslidedn (.clk 0) 5 6 7 .w8, .viota (.clk 0) 5 .w8,
      .vredSum (.clk 0) 5 6 .f32 .rne, .vredSum (.clk 0) 5 6 .i32 .dyn, .vredMin (.clk 0) 5 6 .i8 .dyn, .vredMax (.clk 0) 5 6 .f64 .dyn, .vredAnd (.clk 0) 5 6 .i8,
      .vredOr (.clk 0) 5 6 .i16, .vredXor (.clk 0) 5 6 .i32, .vredFsumx (.clk 0) 5 6 .f32 .dyn, .vredScan (.clk 0) 5 6 .i64 .dyn,
      .vxaccP32 (.clk 0) 5 6 7, .vxaccS32 (.clk 0) 5 6, .vxaccP64 (.clk 0) 5 6 7, .vxaccS64 (.clk 0) 5 6, .xinit (.clk 0) 5 6, .xadd (.clk 0) 5 6 7,
      .xexpp (.clk 0) 5 6 7, .xexps (.clk 0) 5 6].all (runs world)
    && trapsOn 16 (fAdd fmtF32 .rne 0x7F800001 0).2
    && decide ((x128OfVec (vecOfX128 { sum := { v := 0, sp := {} }, e := 3 })).e ≠ (x128OfVec 0).e)) = true := by decide

set_option exponentiation.threshold 4096 in
/-- ExactAccumulation: vectors with a maximum exponent and without one. -/
theorem wit_ExactAccumulation : maxExpSingles 0 = none ∧ (maxExpSingles 0x3F800000).isSome ∧ maxExpProducts 0 0 = none ∧
    (maxExpProducts 0x3F800000 0x3F800000).isSome := by decide

/-- The bytes an access of the state finds, where it is admitted and need not stall. -/
def loads (s : State) (n : Word) (size align : Nat) (k : AccKind) (m : MemMode) : Bool :=
  match locate s s.act0 n.toNat size align k false 0 with
  | .ok l => decide (l.mode = m) && (loadAt s s.dev0 s.act0 l size).isSome && !badIn s.dev l.addr size
  | .error _ => false

set_option maxRecDepth 4096 in
/-- PlainLoads and PlainStores: each mode, the last scratch byte and the first beyond, a misaligned and a reserved pointer. -/
theorem wit_PlainLoadsAndStores : ([Instr.ld (.clk 0) 5 6 .i8 0, .vld (.clk 0) 5 6 0x80, .st (.clk 0) 5 6 .i64 0x7F, .vst (.clk 0) 5 6 0].all (runs world)
    && loads world 2097144 8 8 .load .scratch && loads world 0 256 256 .load .scratch && loads world (ptr 1 65528) 8 8 .load .ordered
    && loads world (ptr 2 0) 8 8 .load .staged && loads world (ptr 3 8) 8 8 .load .live
    && okAt world 0 256 256 .store true .scratch && okAt world (ptr 1 0) 8 8 .store true .ordered
    && errAt world 2097152 1 1 .load false 7 && errAt world 1 8 8 .load false 8 && errAt world (ptr 1 65536) 1 1 .store true 7
    && errAt world (3 * 2 ^ 62) 1 1 .load false 7 && errAt world (ptr 4 0) 1 1 .store true 7) = true := by decide

/-- FollowedBy: an ORDERED word and a vector of them; scratch is PROT. -/
theorem wit_FollowedBy : ([Instr.fbyScalar (.clk 0) 5 6 7, .fbyVector (.clk 0) 5 6 7].all (runs world)
    && (match locate world world.act0 (ptr 1 8).toNat 8 8 .fby true 0 with
        | .ok l => match loadAt world world.dev0 world.act0 l 8 with
          | some (_, u) => match storeAt u u.act0 l 0 (nextSeq u) 0 (bytesOfNat 8 7) with
            | some v => decide (l.mode = .ordered) && !badIn v.dev l.addr 8
            | none => false
          | none => false
        | .error _ => false)
    && okAt world (ptr 1 0) 256 256 .fby true .ordered && errAt world 0 8 8 .fby true 0x0A) = true := by decide

/-- StridedAndIndexed: all lanes in scratch; a lane that fails after lanes that do not. -/
theorem wit_StridedAndIndexed : ([Instr.vlds (.clk 0) 5 6 7 .w8, .vsts (.clk 0) 5 6 7 .w64, .vgath (.clk 0) 5 6 7 .w32, .vscat (.clk 0) 5 6 7 .w16].all (runs world)
    && (List.range 32).all (fun j => okAt world (BitVec.ofNat 64 (8 * j)) 8 8 .load false .scratch && okAt world (BitVec.ofNat 64 (8 * j)) 8 8 .store true .scratch)
    && okAt world 2097144 8 8 .load false .scratch && errAt world (2097144 + 8) 8 8 .load false 7) = true := by decide

/-- TimedLoads: scratch has class 1, a STAGED frame in HBM none, ORDERED memory is PROT. -/
theorem wit_TimedLoads : ([Instr.ldt (.clk 0) 5 6 .c1 .byte, .ldt (.clk 0) 5 6 .c4 .vector].all (runs world)
    && loads world 0 256 256 .timed .scratch && loads world (ptr 2 0) 8 8 .timed .staged && errAt world (ptr 1 0) 8 8 .timed false 0x0A
    && decide (effectiveClass world.act0 { mode := .scratch, addr := 0, lc := 0 } = some 1)
    && decide (effectiveClass world.act0 { mode := .staged, addr := 65536, lc := 0 } = none)
    && decide (effectiveClass world.act0 { mode := .staged, addr := 65536, lc := 1 } = some 4)) = true := by decide

/-- AtomicsWithoutResult and AtomicsWithResult: each mode, an odd address, STAGED bytes that no sibling has met. -/
theorem wit_Atomics : ([Instr.atomAdd (.clk 0) 6 7 .w32, .atomMin (.clk 0) 6 7 .w64, .atomMax (.clk 0) 6 7 .w32, .atomMinn (.clk 0) 6 7 .w32, .atomMaxn (.clk 0) 6 7 .w32,
      .atomAnd (.clk 0) 6 7 .w32, .atomOr (.clk 0) 6 7 .w64, .atomXor (.clk 0) 6 7 .w64, .xadd32 (.clk 0) 6 7, .fetchadd (.clk 0) 5 6 7 .w32, .swap (.clk 0) 5 6 7 .w64,
      .cas (.clk 0) 5 6 7 .w64, .fetchmin (.clk 0) 5 6 7 .w64, .fetchmax (.clk 0) 5 6 7 .w32].all (runs world)
    && okAt world 32 32 32 .atom true .scratch && okAt world (ptr 1 0) 8 8 .atom true .ordered && okAt world (ptr 2 0) 4 4 .atom true .staged
    && okAt world (ptr 3 0) 4 4 .atom true .live && okAt world (ptr 1 0) 8 8 .atomr true .ordered && okAt world (ptr 3 0) 8 8 .atomr true .live
    && okAt world 8 8 8 .atomr true .scratch && errAt world (ptr 2 0) 8 8 .atomr true 0x0A && errAt world 4 8 8 .atom true 8
    && !siblingDid world.dev 0 world.act0.stamp (fun _ => true) 65536 && memWf world.dev.mem && atRidge world world.act0
    && !liveBlocked world world.dev0 world.act0 && liveBlocked ahead ahead.dev0 ahead.act0 && !atomPending world.dev world.act0.key 131072 8
    && (sendEntry world world.act0 0 0 0 0 (.atomr .swap 64 0) 1).isSome && runs ahead (.swap (.clk 0) 5 6 7 .w64)) = true := by decide

/-- LiveMemoryGroup: an activation at the ridge, a speculative one, one with a write on its way. -/
theorem wit_LiveMemoryGroup : ([Instr.ldacq (.clk 0) 5 6 .device, .strel (.clk 0) 5 6 .system, .fence (.clk 0) .die, .pref (.clk 0) 6 7].all (fun i => runs world i && runs ahead i)
    && okAt world (ptr 3 0) 8 8 .liveOnly false .live && okAt world (ptr 3 0) 8 8 .liveOnly true .live && errAt world 0 8 8 .liveOnly true 0x0A
    && !holdsBack world world.act0 && holdsBack ahead ahead.act0 && (ownLive world.dev world.act0.key).isEmpty) = true := by decide

/-- PointerWindows: tiles that are mapped and one that is not, a tile without W. -/
theorem wit_PointerWindows : (decide (scratchExtent world world.act0 = 2097152) && (actRun world world.act0).isSome
    && (imgTensor worldImage 1).isSome && errAt world (ptr 1 65529) 8 8 .load false 7
    && (let unmapped := withDev (fun d => { d with runs := [{ worldRun with tables := [] }] }) world
        errAt unmapped (ptr 1 0) 8 8 .load false 9)
    && (let bare := withDev (fun d => { d with runs := [{ worldRun with tables := [{ table 1 .ordered 0 with
          view := [(0, { loft := false, order := 0, lc := 0, w := false, v := true, frame := 0, reserved := 0 })] }] }] }) world
        errAt bare (ptr 1 0) 8 8 .store true 0x0A && okAt bare (ptr 1 0) 8 8 .load false .ordered)) = true := by decide

/-- FeedPopsAndPushes and FeedGroup: each state of a feed. -/
theorem wit_Feeds : (
    let pop := Instr.vldFeedPop (.clk 0) 5 0
    let push := Instr.vstFeedPush (.clk 0) 5 0
    let fs := [feed false 0 [] none, feed false 0 [entry] none, feed false 0 [{ data := 0, fault := some (9, 8) }] none, feed false 2 [] none,
      feed true 0 [] none, feed true 1 [] (some (9, 8)), feed true 2 [] none, feed true 0 (List.replicate 8 entry) none, feed true 0 [entry] none]
    fs.all (fun f => [pop, push, .funbind (.clk 0) 0, .fflush (.clk 0) 0, .fstat (.clk 0) 5 0, .fbind (.clk 0) 0 6].all (runs (withFeed f world)))
    && decide (battenEntries (feed true 0 [] none).batten = 2) && [Instr.funbind (.clk 0) 1, .fflush (.clk 0) 1, .fstat (.clk 0) 5 1, .fbind (.clk 0) 7 6].all (runs world)) = true := by decide

/-- A field list as little-endian bytes. -/
def bytes (l : List (Nat × Nat)) : List Byte := l.flatMap fun p => bytesOfNat p.1 p.2

/-- A batten of 64 doubles of tensor 2, inbound, and one whose first count is 0. -/
def battenBytes (c : Nat) : List Byte := bytes [(8, (ptr 2 0).toNat), (2, 3), (1, 0), (1, 1), (4, 0), (4, c), (4, 8), (40, 0)]

def withBytes (l : List (Nat × List Byte)) (s : State) : State :=
  withDev (fun d => { d with mem := l.foldl (fun m p => memWriteBytes m p.1 p.2) d.mem }) s

theorem wit_FeedBind : ((parseBatten (battenBytes 64)).isSome && (parseBatten (battenBytes 0)).isNone
    && loads (withBytes [(2 ^ 41, battenBytes 64)] world) 0 64 64 .load .scratch && errAt world 8 64 64 .load false 8
    && decide (feedCount world world.act0 = 8) && feedTarget world world.act0 (ptr 2 0).toNat && !feedTarget world world.act0 (ptr 1 0).toNat) = true := by decide

/-- Spawning: a target that is a later task, one that is not, the handler, counts at and beyond the limit, a taken index, cells. -/
theorem wit_Spawning : ([Instr.spawn (.clk 0) 5 6 7, .spawnc (.clk 0) 5 6 7].all (runs world)
    && (actRun world world.act0).isSome && (imgTask worldImage 2).isSome && (imgTask worldImage 3).isNone
    && ((imgTask worldImage 1).any fun t => t.handler) && decide (world.act0.task < 2) && decide (2 ^ 24 + 0 ≤ 2 ^ 24) && decide (¬ 1 + 2 ^ 24 ≤ 2 ^ 24)
    && (runActs world 0).all (fun y => decide (y.stamp ≠ ⟨0, 2, 0⟩))
    && (let u := withDev (fun d => { d with others := { fetchAct with key := .ordinary 0 ⟨0, 2, 3⟩, stamp := ⟨0, 2, 3⟩, task := 2, place := none } :: d.others }) world
        (runActs u 0).any (fun y => !isHandler y && decide (y.stamp = ⟨0, 2, 3⟩)) && (runActs u 0).all (fun y => decide (y.stamp ≠ ⟨0, 2, 2⟩)))
    && decide (world.act0.weight.toNat / 2 / 1 ≠ 0) && decide ((BitVec.ofNat 64 1 : Word).toNat / 2 / 1 = 0)
    && (imgCond worldImage 1).isSome && (imgCond worldImage 2).isNone && decide (cellValue worldRun 0 0 = none)
    && decide (cellValue { worldRun with values := [{ cell := 0, inst := 0, value := true }] } 0 0 = some true)
    && decide (cellValue { worldRun with values := [{ cell := 0, inst := 0, value := false }] } 0 0 = some false)) = true := by decide

/-- Resolving: a cell of the run, one that is not, an ahead cell, a cell with a value, the next instant of the last, a held resolve. -/
theorem wit_Resolving : ([Instr.resolve (.clk 0) 6 7, .resolven (.clk 0) 6 7].all (fun i => runs world i && runs ahead i)
    && (imgCond worldImage 0).any (fun c => !c.ahead) && (imgCond worldImage 1).any (fun c => c.ahead) && (imgCond worldImage 255).isNone
    && decide ((cellClocks worldImage 0).count 1 = 1) && holdsBack ahead ahead.act0 && !holdsBack world world.act0
    && (cellValue { worldRun with values := [{ cell := 0, inst := 0, value := true }] } 0 0).isSome && (findRun world.dev 0).isSome) = true := by decide

/-- A queue of this device. -/
def queue (ring : List Packet) (cap : Nat) (run : Option Nat) : Queue :=
  { index := 3, gen := 0, live := true, priority := 1, capacity := cap, ring := ring, parsed := 0, run := run, marker := 0, rejects := 0, rejectCode := 0
    resident := true, judged := false }

/-- A packet: type, flags, bytes 2 and 3, then fields from byte 4 up to 64 bytes. -/
def packet (ty flags : Nat) (l : List (Nat × Nat)) : Packet :=
  let bs := bytes ([(1, ty), (1, flags), (1, 7), (1, 9)] ++ l)
  bs ++ List.replicate (64 - bs.length) 0

def withQueue (q : Queue) (s : State) : State := withDev (fun d => { d with queues := [q] }) s

/-- Launching: a packet in scratch and a live status word; the four outcomes; a target with a reserved bit; a speculative issuer. -/
theorem wit_Launching : (
    let s := withBytes [(2 ^ 41, packet 4 0 [])] world
    runs s (.launch (.clk 0) 5 6 7) && loads s 0 64 64 .load .scratch && okAt s (ptr 3 0) 8 8 .liveOnly true .live
    && !holdsBack s s.act0 && holdsBack ahead ahead.act0 && runs ahead (.launch (.clk 0) 5 6 7)
    && (currentQueue s.dev 3).isNone && (currentQueue (withQueue (queue [] 64 none) s).dev 3).isSome
    && (match locate s s.act0 0 64 64 .load false 0 with | .ok l => (loadNow s l 64).isSome | _ => false)
    && pktTypeOk (packet 4 0 []) && pktReservedOk (packet 4 0 []) && !pktTypeOk (packet 7 0 []) && !pktReservedOk (packet 4 4 [])
    && decide ((2 ^ 39 : Nat) / 2 ^ 38 % 2 = 0) && decide ((2 ^ 38 + 5 * 2 ^ 32 : Nat) / 2 ^ 32 % 64 = 5)) = true := by decide

/-- A copy of `c` words from scratch into tensor 2, and a collective of device 0 alone on live memory. -/
def copyBytes (c : Nat) : List Byte := bytes [(8, 0), (8, (ptr 2 0).toNat), (1, 1), (1, 3), (1, 0), (5, 0), (4, c), (36, 0)]
def collBytes (group : Nat) : List Byte :=
  bytes [(1, 0), (1, 10), (1, 0), (1, 0), (1, 0), (3, 0), (8, group), (8, (ptr 3 0).toNat), (8, (ptr 3 256).toNat), (6, 4), (2, 0), (4, 1), (20, 0)]

/-- Scratch holds the block at 0; the arrival word at 64 of tensor 3 has the TARGET `t`. -/
def armed (block : List Byte) (t : Nat) (s : State) : State := withBytes [(2 ^ 41, block), (131072 + 72, bytesOfNat 8 t)] s

def ptrOk (s : State) (p : Word) (n : Nat) : Bool := match enginePtr s p.toNat n with | .ok (some _) => true | _ => false

/-- CopyCommands: both blocks, both TARGETs, sides with and without a target, a record, a full queue. -/
theorem wit_CopyCommands : (
    let s := armed (copyBytes 4) 8 world
    [Instr.cpy (.clk 0) 6 7, .cpysum (.clk 0) 5 6 7].all (runs s) && loads s 0 64 64 .load .scratch && (parseCopy (copyBytes 4)).isSome
    && (parseCopy (copyBytes 0)).isNone && ptrOk s (ptr 3 64) 16 && ptrOk s (ptr 3 128) 32 && decide (targetOf (ownView (before s) s.act0) (131072 + 64) = 8)
    && decide (targetOf (ownView (before s) s.act0) (131072 + 128) = 0) && (match enginePtr s (ptr 3 8).toNat 16 with | .ok none => true | _ => false)
    && copyTarget s s.act0 0 false false && copyTarget s s.act0 (ptr 2 0).toNat true true && !copyTarget s s.act0 (ptr 1 0).toNat false false
    && decide (dieQueue s.dev (actDie s.act0) = 0)) = true := by decide

/-- A command on the queue of die 0. -/
def copyCmd : CopyCmd :=
  { who := fetchAct.key, stamp := stampZero, seq := 0, core := 0
    block := { src := 0, dst := (ptr 2 0).toNat, ndim := 1, esize := 3, srcLogical := false, dstLogical := false, counts := [4], sstr := [0], dstr := [0] }
    arrival := 131072 + 64, record := none, done := 0, crc := 2 ^ 64 - 1, delivered := 0, uncounted := 0, failed := none, started := false, closing := false, took := none, raised := false }

theorem wit_CopyQueueFull : dieQueue { world.dev with copies := world.dev.copies.set 0 (List.replicate 64 copyCmd) } 0 = 64 := by decide

/-- CollectiveCommand: a group of this device, one with a device outside the domain, a key in flight, a speculative issuer. -/
theorem wit_CollectiveCommand : (
    let s := armed (collBytes 1) 8 world
    runs s (.coll (.clk 0) 5 6 7) && runs (armed (collBytes 1) 8 ahead) (.coll (.clk 0) 0 6 7) && (parseColl (collBytes 1)).isSome
    && (parseColl (List.replicate 64 255)).isNone && decide (members 1 = [0]) && decide (s.dev.number = 0 ∧ s.dev.domain = [0]) && decide (members 3 = [0, 1])
    && copyTarget s s.act0 (ptr 3 0).toNat false false && !copyTarget s s.act0 (ptr 1 0).toNat true false
    && (parseColl (collBytes 1)).any (fun c => !keyInFlight s.dev c
      && keyInFlight { s.dev with colls := [{ who := fetchAct.key, stamp := stampZero, seq := 0, die := 0, core := 0, block := c, arrival := 0, record := none, ordinal := 0, peers := [], took := none }] } c)) = true := by decide

/-- The placed activation with weight bank w0 latched and feeds 0 and 1 bound to e4m3 entries. -/
def arrayFeed (buf : List FeedEntry) : Feed :=
  { raw := List.replicate 64 0, batten := { ptr := (ptr 2 0).toNat, fmt := .e4m3, out := false, dims := [(512, 1)] }, pos := 0, buf := buf, seq := 0, bound := 0, fault := none, nextAt := 0 }

def withCore (f : Core → Core) (s : State) : State := withDev (fun d => { d with cores := d.cores.set 0 (f d.cores[0]) }) s

def latched (w : Nat) (s : State) : State := withCore (fun c => { c with w0 := { c.w0 with fmt := some w } }) s

/-- `world` with every tile of core 0 on k0. -/
def tiled : State := withCore (fun c => { c with tiles := Vector.replicate 16 { Tile.init with tag := 0 } }) world

def fed : State := withAct (fun a => { a with feeds := (a.feeds.set 0 (some (arrayFeed [entry]))).set 1 (some (arrayFeed [])) }) tiled

/-- ArrayCommands: an issuer with the array and every tile, without them, without feeds; the format cases; a full path. -/
theorem wit_ArrayCommands : ([Instr.mmaW0 (.clk 0) 0 0 6, .mmaW1 (.clk 0) 0 0 6, .mmasW0 (.clk 0) 0 0 6, .mmasW1 (.clk 0) 0 0 6, .wldW0 (.clk 0) 0 6, .wldW1 (.clk 0) 0 6,
      .scl (.clk 0) 6].all (runs fed)
    && ownsArray fed fed.act0 && (ownedTiles fed fed.act0).contains 15
    && (let other := withAct (fun a => { a with task := 2 }) fed; !ownsArray other other.act0 && (ownedTiles other other.act0).isEmpty)
    && wordOk 5 && wordOk 258 && !wordOk 6 && !wordOk 259 && !wordOk 512 && wSparse 256 && !wSparse 5
    && [0, 1, 2, 3, 4, 5].any (fun w => sameClass .e4m3 w) && [0, 1, 2, 3, 4, 5].any (fun w => !sameClass .e4m3 w)
    && decide ((getCore (latched 0 fed).dev 0).w0.fmt = some 0) && decide ((getCore fed.dev 0).w0.fmt = none) && decide (actCore fed.act0 = 0)) = true ∧
    fed.dev = fed.dev0 := ⟨by decide, rfl⟩

/-- TileWrites and TileReads: an owner, an operand at and beyond each bound, idle rows, a busy row, grids that agree and differ. -/
theorem wit_Tiles : ([Instr.azero (.clk 0) 15 6, .aexp (.clk 0) 15 6, .anorm (.clk 0) 15 6, .acol (.clk 0) 15 6 7, .awrite (.clk 0) 15 6 7, .awriteAdd (.clk 0) 15 6 7,
      .astat (.clk 0) 5 15, .aread (.clk 0) 5 15 7 .raw, .aread (.clk 0) 5 15 7 (.f32 .dyn), .aread (.clk 0) 5 15 7 (.bf16 .dyn), .aread (.clk 0) 5 15 7 (.f16 .rtz),
      .aread (.clk 0) 5 15 7 (.e4m3 .sat), .aread (.clk 0) 5 15 7 (.e5m2 .dyn)].all (runs tiled)
    && (ownedTiles tiled tiled.act0).contains 15 && (List.range 64).all (fun j => !rowBusy (getCore tiled.dev 0).tiles[15] j)
    && rowBusy { (getCore tiled.dev 0).tiles[15] with busy := [(63, none)] } 63
    && decide ((getCore tiled.dev 0).tiles[15].e = sextInt 16 0) && decide (sextInt 16 1 ≠ 0)
    && !trapsOn 1 (readoutLane fmtF32 .rne 0 none Elem.zero).2
    && trapsOn 1 (readoutLane fmtBF16 .rne 0 none { Elem.zero with v := 0x10001 }).2) = true := by decide

/-- A frozen trap. -/
def frozenTrap (code info : Word) (g : FrozenStage) : Frozen :=
  { record := { TrapRec.zero with cause := code, info := info }, stage := g }

/-- A steward slot in focus beside an activation of the run under handle 1. -/
def serving (x : Act) : State :=
  let y := { x with handle := mkHandle 0 0 1 }
  withDev (fun d => { d with
    others := y :: d.others.filter fun a => a.key ≠ fetchAct.key
    runs := [{ worldRun with handles := [{ entry := 1, gen := 0, who := some fetchAct.key }] }] }) stewardBase

def frozenAct (code info : Word) (g : FrozenStage) : Act := { fetchAct with status := .frozen, frozen := some (frozenTrap code info g) }

/-- ReturnAndKill: a handle of a frozen activation, one of no activation, the record of an open bundle, modes 0, 1 and 2. -/
theorem wit_ReturnAndKill : (
    let s := withS [(6, mkHandle 0 0 1)] (serving (frozenAct 8 0 .delivered))
    let t := withS [(6, mkHandle 0 0 1)] (serving (frozenAct 0xFF01 (2 ^ 32) .delivered))
    [Instr.rft (.clk 0) 6 7, .kill (.clk 0) 6 7].all (fun i => runs s i && runs t i)
    && (match frozenTarget s (mkHandle 0 0 1) with
        | some x => x.frozen.isSome && (findAct s x.key).isSome && decide (runOfKey x.key = some 0 ∧ runOfKey s.act0.key ≠ some 0)
            && drained x && !engineBusy s.dev x.key && !arrayBusy s.dev x
        | none => false)
    && (frozenTarget t (mkHandle 0 0 1)).any (fun x => x.frozen.any fun f => isOpenBundle f.record)
    && (frozenTarget s 0).isNone && (frozenTarget s (mkHandle 0 1 1)).isNone
    && engineBusy { s.dev with copies := s.dev.copies.set 0 [copyCmd] } fetchAct.key) = true := by decide

/-- A handler activation that kills its own run. -/
theorem wit_KillOwnRun : (
    let h := { onK0 fetchAct with key := (.handler 0 { inst := 0, task := 0, index := 0 } 0), task := 1, serves := mkHandle 0 0 1, place := some { core := 0, slot := 1, banks := [] } }
    let s := withS [(6, mkHandle 0 0 1)] (withAct (fun _ => h) (serving (frozenAct 8 0 .served)))
    runs s (.kill (.clk 0) 6 7) && (frozenTarget s (mkHandle 0 0 1)).isSome && decide (runOfKey s.act0.key = some 0)) = true := by decide

/-- SnapshotAccess: an activation in a slot under a handle; the bounds of every class. -/
theorem wit_SnapshotAccess : (
    let s := serving (frozenAct 8 0 .served)
    [Instr.snapr (.clk 0) 5 6 7, .snapw (.clk 0) 5 6 7].all (runs s)
    && (sysTarget s (mkHandle 0 0 1)).any (fun x => x.saved.isNone && (findAct s x.key).isSome && decide (scratchExtent s x = 8 * 262144))
    && (sysTarget s (mkHandle 1 0 1)).isNone) = true := by decide

/-- ContextsAndRequests: a parked activation, one that is not, a size and an address for its image. -/
theorem wit_ContextSave : (
    let s := serving { fetchAct with status := .parked }
    [Instr.ctxsv (.clk 0) 5 6 7, .ctxld (.clk 0) 5 6 7, .ttinv (.clk 0) 6 7, .csrw (.clk 0) 6 0x101].all (runs s)
    && okAt s 0 22784 256 .store true .scratch && (sysTarget s (mkHandle 0 0 1)).any (fun x => x.place.isSome && x.status = .parked && settled s x)
    && !settled s { fetchAct with pend := [{ dest := .s 5, val := 0, tag := 0, stale := false, wait := .after 9 }] }
    && (slotAct s 0 0).isSome && (slotAct s 0 1).isNone && (findRun s.dev 0).isSome && (findRun s.dev 1).isNone) = true := by decide

/-- A saved activation whose image stands in steward scratch, with a free core for it and without one. -/
theorem wit_ContextLoad : (
    let v := { savedOf world fetchAct with tiles := [], banks := none, image := some (scratchAddr stewardBase.act0 0) }
    let x := { fetchAct with place := none, status := .pending, saved := some v }
    let s := withBytes [(scratchAddr stewardBase.act0 0, bytes [(4, 0x31585443), (4, 26880)])] (serving x)
    let w := withDev (fun d => { d with cores := d.cores.set 0 { Core.reset with power := .awake } }) s
    okAt s 0 256 256 .load false .scratch
    && (imageOwner s (scratchAddr stewardBase.act0 0) (memReadBytes s.dev0.mem (scratchAddr stewardBase.act0 0) 256)).any (fun y => y.saved.isSome)
    && decide (natAt (memReadBytes s.dev0.mem (scratchAddr stewardBase.act0 0) 256) 0 4 = 0x31585443)
    && startable w x && fits w x 0 && !fits w x 1 && decide (lowestSlot w 0 = some 0)) = true := by decide

/-- Results that land: a fixed-latency one, a timed one whose data have come, one whose data have not, an interlocked one. -/
def flying (timed arrived : Bool) : InFlight :=
  { dest := .v 5, val := 7, tag := 0, due := 0, issued := 0, stale := false, timed := timed, arrived := arrived, memx := none }

theorem wit_ResultsLand : (
    let fixed := { fetchAct with inflight := [flying false true, { flying false true with dest := .s 31, due := 1 }] }
    let late := { fetchAct with inflight := [flying true false] }
    landsNow fixed && (landable fixed).any (fun f => !f.timed && f.memx = none && decide (f.dest = .v 5))
    && landsNow { fetchAct with inflight := [flying true true] } && (landable { fetchAct with inflight := [flying true true] }).any (·.timed)
    && (landable late).isNone && late.inflight.all (fun f => !f.arrived) && decide (late.status ≠ .frozen ∧ late.status ≠ .parked)
    && (findAct world fetchAct.key).isSome) = true := by decide

/-- PreemptionAndHandlers: a slot with and without an activation, a request at a boundary and at the forced point, a parked slot, a delivered trap. -/
theorem wit_PreemptionAndHandlers : (
    let at_ := fun (a : Act) => withAct (fun _ => a) world
    let asked := { fetchAct with preempt := true, boundary := true }
    let parked := { fetchAct with status := .parked, handle := mkHandle 0 0 1 }
    let trapped := at_ (frozenAct 8 0 .delivered)
    decide (world.dev.boot = .running) && (slotAct world 0 1).isNone && (slotAct world 0 0).isSome
    && canHandle (at_ asked) asked && decide (asked.status = .ready) && decide (16384 < ({ asked with sinceRequest := 16385 } : Act).sinceRequest)
    && settled (at_ parked) parked && decide (parked.handle ≠ 0)
    && (oldest ((acts trapped).filter fun x => awaitsHandler x && canHandle trapped x)).any (fun a => (actRun trapped a).any fun r => (imgHandler r.image).isSome)) = true := by decide

/-- RetirementAndInstants: an activation that may retire, a speculative one, held effects, instants to admit and to complete. -/
theorem wit_RetirementAndInstants : (
    let done := { fetchAct with status := .ended }
    let s := withAct (fun _ => done) world
    let held := { fetchAct with held := [{ seq := 0, op := .live 131072 (.store [1]), core := 0 }] }
    !speculative s done && done.held.isEmpty && quiet s.dev 0 stampZero (.ordinary 0 stampZero) && (findAct s (.ordinary 0 stampZero)).isSome
    && speculative ahead ahead.act && (findAct ahead (.ordinary 0 ⟨1, 0, 0⟩)).isSome
    && !speculative (withAct (fun _ => held) world) held && held.frozen.isNone
    && decide (worldRun.nextInstant ≤ ridgeInstant world worldRun + worldRun.reach ∧ worldRun.nextInstant < worldRun.allowance)
    && !decide (({ worldRun with allowance := 1 } : Run).nextInstant < 1)
    && (worldRun.instants.find? (fun j => j.num = 0)).any (fun i => decide (i.returned ≠ 2 ^ 63))
    && decide (initialCount worldRun ≠ 0) && !(initialActs worldRun 0 1 5).isEmpty) = true := by decide

/-- PlacementAndPower: an activation to place, none, an early cycle; cores of every power state; a bank to clear; a halted steward. -/
theorem wit_PlacementAndPower : (
    let x := { fetchAct with place := none, status := .pending }
    let s := withAct (fun _ => x) (withDev (fun d => { d with cores := d.cores.set 0 { Core.reset with power := .awake } }) world)
    let l := (acts s).filter fun a => startable s a && (bestCore s 0 a).isSome
    (chooseAct s s.dev.pointers[0] l).any (fun a => decide (bestCore s 0 a = some 0)) && decide (bestCore s 0 x = some 0) && decide (lowestSlot s 0 = some 0) && (imgTask worldImage 0).isSome
    && ((acts world).filter fun a => startable world a && (bestCore world 0 a).isSome).isEmpty && (wakers (placementView world) 0).isEmpty
    && (let w := withDev (fun d => { d with cycle := 20000, cores := d.cores.set 0 Core.reset }) s
        (wakers (placementView w) 0).any (fun z => !speculative (placementView w) z)
        && decide (wakingSlots w 0 < (wakers (placementView w) 0).length ∧ w.dev.wokeAt[0] ≤ w.dev.cycle)
        && decide ((getCore w.dev 0).power = .gated ∧ (getCore w.dev 0).excluded = false))
    && decide (s.dev.cores[0].power = .awake) && (coreActs s 0).isEmpty && !(coreActs world 0).isEmpty
    && (acts State.reset).any (fun a => decide (a.key = .steward 3 7))) = true := by decide

/-- CellsAndLiveWrites: an entry with a cell and room, one behind another, notices of every case, a cell, a delivered ATOMR, live writes. -/
theorem wit_CellsAndLiveWrites : (
    let req : CellReq := { word := 8, run := 0, who := fetchAct.key, ptr := 8, entry := { stamp := stampZero, seq := 0, lane := 0, op := .atomr .swap 64 0, val := 5 }, reserved := false }
    let s := withDev (fun d => { d with cellq := [req, { req with entry := { req.entry with seq := 1 } }] }) world
    let c : Cell := { word := 8, run := 0, hist := [req.entry], readers := [] }
    let t := withDev (fun d => { d with cells := [c] }) world
    !behindOwn s.dev.cellq 0 req && behindOwn s.dev.cellq 1 req && cellAvailable s.dev 8 && decide (cellEntries ([] ++ [req.entry]) ≤ 16)
    && decide (fetchAct.incarnation ≠ 1) && decide (fetchAct.incarnation = 0 ∧ fetchAct.status = .ready)
    && (findAct world (.ordinary 0 ⟨9, 0, 0⟩)).isNone && siblingsBelowDone t 0 stampZero && ownArrived t 0 8 0 stampZero
    && (deliveredValue t.dev 8 0 stampZero).isSome && !badIn t.dev 8 8 && !siblingsBelowDone world 0 ⟨0, 0, 1⟩
    && (let l : LiveReq := { who := fetchAct.key, seq := 0, addr := 131072, op := .store [1], core := 0, reach := 0, released := false, unit := .slot, counts := none }
        mayPerform { world.dev with liveq := [l, l] } 0 l && !mayPerform { world.dev with liveq := [l, l] } 1 l)) = true := by decide

/-- UnitsAndEngines: a feed to fill and one that cannot, a pushed entry, a copy element and its end, collectives of one and of two members. -/
theorem wit_UnitsAndEngines : (
    let f := { feed false 0 [] none with batten := { (feed false 0 [] none).batten with ptr := 0, dims := [(1, 1)] } }
    let s := withFeed f world
    (match feedOf s.act 0 with
      | some g => decide (g.pos + g.buf.length < battenEntries g.batten) &&
          (match readElems s.act g.batten (entryElems g.batten 0).2 (entryElems g.batten 0).1 s with
            | (u, .ok bs) => decide (bs.length = 8) && (findAct u s.act.key).isSome
            | _ => false)
      | none => false)
    && (let g := { f with batten := { f.batten with ptr := 3 } }
        match readElems s.act g.batten 1 0 s with | (u, .error x) => decide (x.code = 8) && (findAct u s.act.key).isSome | _ => false)
    && (match writeElems s.act { f.batten with out := true } 0 1 0 (bytesOfNat 8 7) s with | (u, z) => z.isNone && (findAct u s.act.key).isSome)
    && mayStart { world.dev with copies := world.dev.copies.set 0 [copyCmd, copyCmd] } 0 copyCmd && decide (copyCmd.done < copyTotal copyCmd.block)
    && (match copyElem world world.act { copyCmd with block := { copyCmd.block with dst := 64 } } with | (_, .done bs) => decide (bs.length = 8) | _ => false)
    && !speculative world world.act && decide (0 < 32 ∧ ({ copyCmd with done := 4, uncounted := 32 } : CopyCmd).done = copyTotal copyCmd.block)) = true := by decide

def collCmd (group : Nat) : CollCmd :=
  { who := fetchAct.key, stamp := stampZero, seq := 0, die := 0, core := 0, arrival := 131072 + 64, record := none, ordinal := 0, peers := [], took := none
    block := { op := 0, type := 2, mode := 0, redop := 0, root := 0, group := group, src := 0, dst := 64, count := 1, tag := 0 } }

theorem wit_Collectives : (allArrived 0 (collCmd 1) && !allArrived 0 (collCmd 3) && !collWaits world world.act (collCmd 1) && (findAct world (collCmd 1).who).isSome
    && (members 3).contains 1 && (match collEnd world world.act (collCmd 1) with | (_, .done _ _) => true | _ => false)) = true := by decide

/-- ArraySteps: a row with its data on a ready bank, a WLD with its entry, banks that are due, a hold to drop. -/
theorem wit_ArraySteps : (
    let m : MulCmd := { owner := fetchAct.key, serial := 0, tile := 0, bank := false, feed := 0, afmt := .e4m3, sparse := false, first := 0, n := 1, done := 0, latches := [], added := [], holds := [] }
    let w : WldCmd := { owner := fetchAct.key, serial := 0, bank := true, feed := 0, fmt := 0, done := 0, was := none }
    let s := withCore (fun c => { c with mulq := [m], wq := [w], w0 := { c.w0 with cur := some 0, ready := true } }) fed
    let c := getCore s.dev 0
    decide (c.mulq = [m]) && decide (c.wq = [w]) && (findAct s m.owner).isSome && (bankOf c m.bank).ready && decide ((bankOf c m.bank).cur = some 0)
    && c.wq.all (fun v => v.bank ≠ m.bank || decide (m.serial ≤ v.serial)) && decide (modeCols 0 ≤ 384)
    && (feedOf s.act 0).any (fun g => !g.batten.out && decide (g.pos < battenEntries g.batten) && g.buf.any (fun x => x.fault.isNone))
    && decide ((getCore fed.dev 0).mulq = []) && decide ((getCore fed.dev 0).wq = []) && decide ((getCore fed.dev 0).w0.readyAt = none)) = true := by decide

/-- PacketsAndQueues: a head packet of each type that is taken, one of no type, a START for a free run, FENCE met and not met. -/
theorem wit_PacketsAndQueues : (
    let at_ := fun (p : Packet) (run : Option Nat) => withQueue (queue [p] 64 run) { world with dev := { world.dev with images := [(5, worldImage)] } }
    let head := fun (p : Packet) (run : Option Nat) =>
      (headPacket (at_ p run) 3).isSome && (findQueue (at_ p run).dev 3).isSome && (rejectCode (at_ p run).dev (queue [p] 64 run) p).isNone
    head (packet 2 1 [(4, 0), (6, 3)]) (some 0) && head (packet 3 0x10 [(1, 0), (4, 0)]) none && head (packet 4 1 [(4, 9), (8, 5)]) none && head (packet 5 0 [(1, 0)]) (some 0)
    && head (packet 5 0 [(1, 1)]) (some 0) && head (packet 6 1 [(4, 0), (8, 77)]) none
    && fenceMet world.dev (packet 3 0x10 [(1, 0), (4, 0)]) 0 && !fenceMet world.dev (packet 3 0x10 [(1, 0), (4, 1)]) 0
    && !pktTypeOk (packet 0 0 []) && decide (rejectCode world.dev (queue [] 64 none) (packet 0 0 []) = some 1)
    && grantedLeft { worldRun with nextInstant := 1, allowance := 8 } && !grantedLeft { worldRun with nextInstant := 8, allowance := 8, instants := [] }
    && (freeRun world.dev 1024 0).isSome && decide (world.dev.number ≠ 1) && !reachable world.dev 1
    && reachable { world.dev with domain := [0, 1], routes := [{ device := 1, ports := [11] }] } 1) = true := by decide

/-- A START that is not rejected. -/
theorem wit_Start : (
    let p := packet 1 1 [(4, 5), (1, 0), (1, 0), (1, 1), (1, 0), (4, 4), (8, 77)]
    let s := withQueue (queue [p] 64 none) { world with dev := { world.dev with images := [(5, worldImage)], keys := [(0, { key0 := 1, key1 := 2 })] } }
    (headPacket s 3).isSome && (rejectCode s.dev (queue [p] 64 none) p).isNone && decide (natAt p 4 4 = 5)) = true := by decide

/-- HostRequests: a running device, one in minimal mode, images and firmware good and bad, queues, tiles, ranges and key slots at their bounds. -/
theorem wit_HostRequests : (
    let q := queue [] 64 none
    decide (world.dev.boot = .running) && imageOk worldImage && !imageOk { worldImage with loft := 1025 }
    && capacityOk 64 && !capacityOk 63 && (findQueue (withQueue q world).dev 3).isSome && (findQueue world.dev 65535).isNone
    && (currentQueue (withQueue q world).dev 3).any (fun x => x.run.isNone) && (currentQueue world.dev 3).isNone
    && (findRun world.dev 0).isSome && (findRun world.dev 1).isNone && (imgTensor worldImage 1).any (fun t => decide (0 < t.ntiles ∧ t.ntiles ≤ 1))
    && (imgTensor worldImage 1).any (fun t => mapOk worldRun t { loft := true, order := 0, lc := 0, w := true, v := true, frame := 0, reserved := 0 }
        && !mapOk worldRun t { loft := true, order := 0, lc := 0, w := true, v := true, frame := 1, reserved := 0 })
    && decide (hostRange worldRun 0 8 = .invalid) && decide (hostRange worldRun (ptr 1 65528).toNat 8 ≠ .invalid) && decide (hostRange worldRun (ptr 1 65528).toNat 9 = .invalid)
    && hostMay { worldRun with instants := [] } (hostRange worldRun (ptr 1 65528).toNat 8) && hostMay worldRun (hostRange worldRun (ptr 3 0).toNat 8)
    && (hostAddrs world.dev 0 8 (hostRange worldRun (ptr 1 65528).toNat 8)).2.isSome
    && decide (world.dev.runs.any (fun x => x.keySlot = 0)) && decide (world.dev.runs.all (fun x => x.keySlot ≠ 63))) = true := by decide

/-- BootResetAndSurroundings: every phase of the start-up; temperatures at the limits; ports; addresses inside and outside the memories. -/
theorem wit_BootResetAndSurroundings : (
    decide (State.reset.dev.boot = .off ∧ State.reset.dev.activeBank = none) && decide ((30000000000 : Nat) ≤ 30000000000) && decide (¬ 0 + 30000000000 ≤ (29999999999 : Nat))
    && decide (world.dev.cores[0].excluded = false) && (State.reset.dev.ports[11]).up && decide ((State.reset.dev.ports[11]).resends < 16)
    && isDeviceByte 0 && isDeviceByte (2 ^ 41) && !isDeviceByte (2 ^ 50) && decide (world.dev.runs.all fun r => !ownsByte world r (2 ^ 41 + 2 ^ 21))) = true := by decide

/-- The clauses of powerOnBoot and firmwareImageLoad speak of what the device key and the training leave open: no value of either is chosen, and
each clause's other hypotheses are met. -/
theorem wit_Firmware (fw : Firmware) : firmwareFault fw = none ∨ ∃ c, firmwareFault fw = some c := by
  cases h : firmwareFault fw with
  | none => exact .inl rfl
  | some c => exact .inr ⟨c, rfl⟩

/-- EveryInstructionDecodesBack and EveryWordEncodesBack. -/
theorem wit_Encodings : ((Instr.vcvt .last 31 30 .e5m2 .n64 .sat).wf && (Instr.vcvt .last 31 30 .e5m2 .n64 .sat).encoded
    && (decodeWord 0xFFFFFFFF#32).isNone && (decodeWord 0x80400000#32).isSome) = true := by decide

/-- StepRunsDecodedInstruction: the machine of `withFetchWord` meets its hypotheses. -/
theorem wit_StepRunsDecodedInstruction : (
    let s := { placeWord State.reset 0x80400000#32 with agenda := [] }
    (placeWord State.reset 0x80400000#32).agenda = [.issue 0] && (runningAct s 0).any (fun a => a.key = fetchAct.key)
    && (let f := focusOn s fetchAct.key
        let r := endDuePass (landAll f.act.inflight.length { f with act := { f.act with status := .ready } })
        let b := { r with dev0 := r.dev, act0 := r.act, iss := { Iss.idle with words := [0x80400000#32] } }
        !frozenByTimedLoad f.act && !r.act.preempt && r.act.deferred.isEmpty && r.dev.badCode.isEmpty && decide (r.act.inflight.length < 48)
        && decide (fetchBundle (codeOf b b.act0) b.act0.pc = .ok [0x80400000#32])
        && decide (decodeWord 0x80400000#32 = some { stop := true, instr := .addi (.clk 0) 0 0 0 }) && !undefHere b.act0 (.addi (.clk 0) 0 0 0)
        && decide (structural b (.addi (.clk 0) 0 0 0) = .go 0 true) && !awaited b.act0 (.addi (.clk 0) 0 0 0))) = true := by decide

/-- BundleCommit: a bundle that ran, one that stalled, an innermost level with another pass. -/
theorem wit_BundleCommit : (decide (world.iss.status = .running ∧ world.iss.ctl = .next) && decide ((stall world).iss.status = .stalled)
    && decide ((level 2 0 0 1).index + 1 ≠ (level 2 0 0 1).count)) = true := by decide

/-- StructuralChecks: an undefined clock, a source that fits and one that does not, a missing privilege, an absent clock, an awaited register, the qualifiers. -/
theorem wit_StructuralChecks : (
    let s := looping [level 2 0 0 3] false
    let absent := withAct (fun a => { a with clocks := a.clocks.set 0 { Clock.base with pres := false } }) world
    decide (structural s (.add (.clk 13) 5 6 7) = .trap 4 (13 * 2 ^ 32 + 0x80400000)) && decide ((srcTag s (.s 6)).toNat = 0) && decide (srcTag s (.s 0) = 30)
    && (match structural placed (.add (.clk 0) 5 6 7) with | .trap 3 _ => true | _ => false) && decide ((srcTag placed (.s 6)).toNat = 31)
    && !privileged s.act0 (.halt (.clk 0)) && privileged s.act0 (.add (.clk 0) 5 6 7)
    && (match structural world (.halt (.clk 0)) with | .trap 0x15 _ => true | _ => false)
    && decide (structural absent (.add (.clk 0) 5 6 7) = .go 0 false) && decide (structural s (.add .first 5 6 7) = .go 0 true)
    && decide (structural s (.add .last 5 6 7) = .go 0 false) && decide (structural s (.br .first 2) = .go 0 true)
    && awaited { world.act0 with pend := [{ dest := .s 6, val := 0, tag := 0, stale := false, wait := .ready }] } (.add (.clk 0) 5 6 7)) = true := by decide

/-- BundleChecks: words that decode and one that does not, each kind of refused bundle, a bundle that eight words do not end, the end of the code. -/
theorem wit_BundleChecks : (
    let x := 0x07E00005#32   -- an X slot
    let add := fun (n : Nat) => BitVec.ofNat 32 (n * 2 ^ 16)   -- ADD sn, s0, s0 without a stop bit
    decide ((decodeWord x).map (·.instr) = some (.literalExtension 5)) && decide ((decodeWord (add 5)).map (·.instr) = some (.add (.clk 0) 5 0 0))
    && (decodeWord 0x86C073F0#32).isNone && !acceptsExt (.add (.clk 0) 5 0 0) && decide ((writesOf (.add (.clk 0) 5 0 0)).contains (Res.s 5))
    && decide (clashing [.add (.clk 0) 5 0 0, .sub (.clk 0) 6 0 0, .xor (.clk 0) 7 0 0] = [])
    && decide (fetchBundle (bytesOfWord (add 5) ++ bytesOfWord 0x86C073F0#32) 0 = .ok [add 5, 0x86C073F0#32])
    && decide (fetchBundle ((List.replicate 8 (add 5)).flatMap bytesOfWord) 0 = .open_ (List.replicate 8 (add 5)))
    && decide (fetchBundle threeBundles 12 = .off)) = true := by decide

/-- TrapEntry: a speculative activation, one of a run with a handler, one of a run without. -/
theorem wit_TrapEntry : (speculative ahead ahead.act0 && !speculative world world.act0 && (findRun world.dev0 0).any (fun r => (imgHandler r.image).isSome)
    && (imgHandler { worldImage with tasks := [fetchTask] }).isNone) = true := by decide

/-- RegisterFrames and StoreFrames: slots of each unit that take effect and stay running. -/
theorem wit_Frames : ([Instr.add (.clk 0) 5 6 7, .mul (.clk 0) 5 6 7, .vadd (.clk 0) 5 6 7 .i32 .dyn, .csrw (.clk 0) 6 0x002, .nop (.clk 0), .st (.clk 0) 5 6 .i64 0,
      .vsts (.clk 0) 5 6 7 .w64, .atomAdd (.clk 0) 6 7 .w64, .swap (.clk 0) 5 6 7 .w64, .ld (.clk 0) 5 6 .i64 0].all (fun i => runs world i &&
        match exec i world with | .next u => decide (u.iss.status = .running) | _ => false)
    && memWf world.dev.mem) = true := by decide

/-- StepKeepsMemory: the machine at power-on is well kept. -/
theorem wit_StepKeepsMemory : MemOk State.reset := ⟨rfl, rfl⟩

/-- RoundingChoosesTheNearest and ArithmeticRoundsOnce: a format, a number, finite operands, an infinity, NaNs. -/
theorem wit_Numbers : fmtE4M3 ∈ floatFormats ∧ (decodeF fmtF32 0x3F800000 = .fin false (2 ^ 23) (-23)) ∧ decodeF fmtF32 0x7F800000 = .inf false ∧
    decodeF fmtF32 0xFF800000 = .inf true ∧ isNaN (decodeF fmtF32 0x7F800001) = true ∧ isSNaN (decodeF fmtF32 0x7F800001) = true ∧
    isNaN (decodeF fmtF32 0) = false := by decide

/-! ## More witnesses: the other cases of the clauses -/

/-- A live access of the placed activation on the first word of tensor 3. -/
def liveR (seq : Nat) (op : LiveOp) : LiveReq :=
  { who := fetchAct.key, seq := seq, addr := 131072, op := op, core := 0, reach := 0, released := false, unit := .slot, counts := none }

/-- A state with live accesses on their way since before the bundle, and one with a FENCE issued in it. -/
def flyingLive (l : List LiveReq) (s : State) : State := withDev (fun d => { d with liveq := l }) s
def fencing (s : State) : State := { s with dev := { s.dev with liveq := [liveR 0 (.fence .device)] } }

/-- A cell whose four reader records are taken. -/
def crowded (w : Nat) : Cell :=
  { word := w, run := 0, hist := [], readers := (List.range 4).map fun i => { stamp := ⟨9, 0, i⟩, inc := 0, prior := 0 } }

/-- A vault whose cells are all taken. -/
def fullVault (s : State) : State := withDev (fun d => { d with cells := List.replicate 32768 (crowded (frameAddr true 0 512)) }) s

/-- PlainLoads, StridedAndIndexed, LiveMemoryGroup, AtomicsWithResult: reads behind a FENCE of their bundle, live vectors, reads that
must wait, a word without room for a reader record, at the ridge and above it. -/
theorem wit_ReadsThatWait : (
    let w := frameAddr true 0 0
    let full := withDev (fun d => { d with cells := [crowded w] }) ahead
    let live : Located := { mode := .live, addr := 131072, lc := 0 }
    let ordered : Located := { mode := .ordered, addr := w, lc := 0 }
    okAt world (ptr 1 0) 8 8 .load false .ordered && loads world (ptr 3 0) 256 256 .load .live && loads (fencing world) (ptr 3 0) 8 8 .load .live && fenced (fencing world).dev fetchAct.key && !fenced world.dev fetchAct.key
    && okAt ahead (ptr 3 0) 8 8 .load false .live && (loadAt ahead ahead.dev0 ahead.act0 live 8).isNone
    && okAt full (ptr 1 0) 8 8 .load false .ordered && (loadAt full full.dev0 full.act0 ordered 8).isNone
    && (let p := flyingLive [liveR 0 (.atom .add 64 1)] world
        (loadAt p p.dev0 p.act0 live 8).isNone && atomPending p.dev0 p.act0.key 131072 8 && !liveBlocked p p.dev0 p.act0)
    && loadSettled world world.act0 w && !loadSettled ahead ahead.act0 w && readerRoom ahead.dev w ahead.act0.stamp ahead.act0.incarnation
    && !readerRoom full.dev w full.act0.stamp full.act0.incarnation && okAt full (ptr 1 0) 8 8 .atomr true .ordered && runs full (.swap (.clk 0) 5 6 7 .w64)
    && [Instr.vlds (.clk 0) 5 6 7 .w8, .vgath (.clk 0) 5 6 7 .w32, .ld (.clk 0) 5 6 .i64 0, .ldacq (.clk 0) 5 6 .core].all (fun i => runs ahead i && runs full i && runs (fencing world) i)) = true := by decide

/-- PlainStores, AtomicsWithoutResult, AtomicsWithResult, StridedAndIndexed: a speculative activation finds no cell. -/
theorem wit_NoCell : sendEntry (fullVault ahead) (fullVault ahead).act0 (frameAddr true 0 0) 0 0 0 (.atom .add 64 0) 0 = none := by
  have h : cellAvailable (fullVault ahead).dev (frameAddr true 0 0) = false := by
    have e : (fullVault ahead).dev.cells = List.replicate 32768 (crowded (frameAddr true 0 512)) := rfl
    have q : (fullVault ahead).dev.cellq = [] := rfl
    have n : (crowded (frameAddr true 0 512)).word = frameAddr true 0 512 := rfl
    simp [-List.reduceReplicate, cellAvailable, findCell, reservedWords, e, q, n, List.filter_replicate]
    rw [if_pos (by decide), List.length_replicate]; decide
  have z : speculative (fullVault ahead) (fullVault ahead).act0 = true := by rfl
  simp [sendEntry, h, z]

/-- The placed run with a loft window of one frame in vault 2, and a tensor of each kind of access set. -/
def windowed : State :=
  withDev (fun d => { d with runs := [{ worldRun with
    window := [(2, [2048])], image := { worldImage with
      tensors := [{ tensor 1 .ordered with readers := some [0], writers := some [2] }, tensor 2 .staged, { tensor 3 .live with writers := some [2] }] } }] }) world

/-- PointerWindows: the loft window at its bounds and beyond its frames, and each way to PROT: by access set, for reads and writes, and by mode. -/
theorem wit_WindowsAndSets : (
    let w := 2 ^ 62 + 2 * 2 ^ 26
    let reaches := fun (n : Nat) (k : AccKind) => okAt windowed (BitVec.ofNat 64 n) 8 8 k true .live
    reaches w .store && reaches (w + 65528) .atomr && reaches w .liveOnly && errAt windowed (BitVec.ofNat 64 (w + 65529)) 8 8 .load false 7
    && errAt windowed (BitVec.ofNat 64 (w + 2 ^ 31)) 8 8 .load false 7 && errAt windowed (BitVec.ofNat 64 (w + 4)) 8 8 .load false 8
    && [AccKind.fby, .timed, .feed].all (fun k => errAt windowed (BitVec.ofNat 64 w) 8 8 k false 0x0A)
    && okAt windowed (ptr 1 0) 8 8 .load false .ordered && errAt windowed (ptr 1 0) 8 8 .store true 0x0A
    && errAt windowed (ptr 3 0) 8 8 .load false 0x0A && okAt windowed (ptr 2 0) 8 8 .store true .staged
    && errAt windowed (ptr 2 0) 8 8 .atomr true 0x0A && errAt windowed (ptr 2 0) 8 8 .fby true 0x0A && errAt windowed (ptr 1 0) 8 8 .timed false 0x0A
    && errAt windowed (ptr 1 0) 8 8 .liveOnly false 0x0A) = true := by decide

/-- AtomicsWithResult: a staged tensor's tile that is mapped. -/
theorem wit_StagedAtomr : (
    let n := (ptr 2 8).toNat
    decide (2 ^ 63 ≤ n ∧ n < 3 * 2 ^ 62 ∧ n / 2 ^ 56 % 64 = 0 ∧ n % 8 = 0 ∧ n % 2 ^ 44 + 8 ≤ 65536 ∧ n % 2 ^ 44 / 65536 < 1)
    && (imgTensor worldImage (n / 2 ^ 44 % 4096)).any (fun t => decide (t.order = .staged))
    && ((worldRun.tables.find? fun x => x.handle = 2).bind fun x => tileOf x.view 0).any (fun e => e.v)) = true := by decide

set_option exponentiation.threshold 4096 in
set_option maxRecDepth 20000 in
/-- FeedPopsAndPushes: a feed its words do not name, and a push in the bundle of END, whose entry is performed. -/
theorem wit_PushAndEnd : (
    let f := feed true 0 [] none
    let s := withFeed f world
    let t := { s with iss := { s.iss with ctl := .endAct } }
    runs world (.vldFeedPop (.clk 0) 5 0) && runs world (.vstFeedPush (.clk 0) 5 0) && (feedOf world.act0 0).isNone && runs t (.vstFeedPush (.clk 0) 5 0)
    && decide (t.act = t.act0 ∧ t.iss.ctl = .endAct ∧ s.iss.ctl ≠ .endAct) && (writeEntries t.act0 f 0 [{ data := 0, fault := none }] t).2.isNone) = true := by decide

/-- Resolving: an activation at the ridge that has an effect still held. -/
theorem wit_ResolveBehindHeld : (
    let s := withAct (fun a => { a with held := [{ seq := 0, op := .live 131072 (.store [1]), core := 0 }] }) world
    runs s (.resolve (.clk 0) 6 7) && runs s (.resolven (.clk 0) 6 7) && !speculative s s.act0 && speculative ahead ahead.act0 && !s.act0.held.isEmpty && world.act0.held.isEmpty
    && decide (({ stampZero with inst := 2 ^ 48 - 1 } : Stamp).inst + 1 = 2 ^ 48)) = true := by decide

/-- Launching: another device, reachable and not; CollectiveCommand: a full queue. -/
theorem wit_RemoteAndFull : (
    let s := withBytes [(2 ^ 41, packet 4 0 [])] world
    let r := withDev (fun d => { d with domain := [0, 1], routes := [{ device := 1, ports := [11] }] }) s
    let x := 2 ^ 38 + 2 ^ 32
    decide (x < 2 ^ 39 ∧ 2 ^ 38 ≤ x ∧ x / 2 ^ 38 % 2 = 1 ∧ x / 2 ^ 32 % 64 ≠ r.dev.number) && reachable r.dev (x / 2 ^ 32 % 64) && !reachable s.dev (x / 2 ^ 32 % 64)
    && runs r (.launch (.clk 0) 5 6 7) && loads r 0 64 64 .load .scratch && okAt r (ptr 3 0) 8 8 .liveOnly true .live
    && (let f := withDev (fun d => { d with copies := d.copies.set 0 (List.replicate 64 copyCmd) }) (armed (collBytes 1) 8 world)
        decide (64 ≤ dieQueue f.dev (actDie f.act0)) && runs f (.coll (.clk 0) 5 6 7) && loads f 0 64 64 .load .scratch && !holdsBack f f.act0)) = true := by decide

/-- SequenceAndWaits: a pushed entry that END must still see performed is not there; the conditions of the waits. -/
theorem wit_Waiting : (
    let s := withFeed (feed true 0 [] none) world
    runs s (.endAct (.clk 0)) && (checkEndFeeds s.act0).isNone && (feedOf s.act 0).any (fun g => g.batten.out && g.buf.isEmpty)
    && (let p := withDev (fun d => { d with liveq := [{ who := fetchAct.key, seq := 0, addr := 131072, op := .atom .add 64 1, core := 0, reach := 0, released := false, unit := .slot, counts := none }] }) world; atomPending p.dev0 p.act0.key 131072 8 && !atomPending world.dev0 world.act0.key 131072 8)
    && decide ((((5 : Nat) : Int) - (65530 : Nat)) % 65536 < 32768) && !decide ((((5 : Nat) : Int) - (6 : Nat)) % 65536 < 32768)) = true := by decide

/-- ReturnAndKill: a frozen activation whose context the service keeps, and a handler activation. -/
theorem wit_ReturnSaved : (
    let x := frozenAct 8 0 .served
    let s := withS [(6, mkHandle 0 0 1)] (serving { x with place := none, saved := some (savedOf world x) })
    let h := withS [(6, mkHandle 0 0 1)] (serving x)
    (frozenTarget s (mkHandle 0 0 1)).any (fun y => y.saved.isSome && y.frozen.isSome && (findAct s y.key).isSome && (fromImage s y).frozen.isSome)
    && runs s (.rft (.clk 0) 6 7) && (frozenTarget h (mkHandle 0 0 1)).any (fun y => y.saved.isNone && !isHandler y)
    && isHandler { x with key := (.handler 0 { inst := 0, task := 0, index := 0 } 0) }) = true := by decide

/-- ContextsAndRequests: a header with an uncorrectable error, a request that is already there, TTINV's bounds. -/
theorem wit_ContextHeader : (
    let s := serving { fetchAct with status := .parked }
    let a := scratchAddr stewardBase.act0 0
    let b := { s with dev := { s.dev with bad := [a + 9] } }
    okAt b 0 256 256 .load false .scratch && badIn b.dev a 256 && runs b (.ctxld (.clk 0) 5 6 7)
    && (let asked := withAct (fun x => { x with preemptCsr := 65536 }) s
        decide (asked.act.preemptCsr.toNat / 65536 % 2 = 1) && runs asked (.csrw (.clk 0) 6 0x101))
    && runs s (.ttinv (.clk 0) 6 7) && (slotAct s 0 0).any (fun x => decide (x.key ≠ s.act.key ∧ runOfKey x.key ≠ none ∧ x.status ≠ .ended ∧ x.status ≠ .retired))) = true := by decide

set_option exponentiation.threshold 4096 in
set_option maxRecDepth 20000 in
/-- ResultsLand: the earliest issued of equals, a register that awaits, a result for the latches, one with an uncorrectable error, a
feed's entry before and at its time, live bytes, a slot that is left, data for a frozen one. -/
theorem wit_Landing : (
    let r := { flying false true with issued := 3 }
    let l := { fetchAct with inflight := [{ flying false true with issued := 4, dest := .v 6 }, r, { flying false true with due := 1 }] }
    let bad := { fetchAct with inflight := [{ flying true true with memx := some TrapRec.zero }] }
    let held := { fetchAct with inflight := [flying true false], status := .frozen }
    let p : Pend := { dest := .v 5, val := 0, tag := 0, stale := false, wait := .after 9 }
    landable l = some r && landsNow l && decide (landable bad = some { flying true true with memx := some TrapRec.zero } ∧ bad.deferred.length < 8)
    && ({ l with pend := [p] } : Act).pend.any (fun y => y.dest = r.dest) && !l.pend.any (fun y => y.dest = r.dest)
    && (landable { fetchAct with inflight := [{ flying false true with dest := .latches }] }).any (fun f => decide (f.dest = .latches)) && fetchAct.place.isSome
    && mayLand 9 p.wait && !mayLand 8 p.wait && mayLand 0 (.live 0 8 [] false false) && held.inflight.all (fun f => !f.arrived)
    && !landsNow held && !landsNow { l with place := none }) = true := by decide

set_option exponentiation.threshold 4096 in
set_option maxRecDepth 20000 in
/-- PreemptionAndHandlers: a request whose due result lands first, one that a timed load holds back, a frozen slot with a request, a
handler that met a trap, a run without a handler. -/
theorem wit_PreemptionLands : (
    let asked := { fetchAct with preempt := true, boundary := true, inflight := [flying false true] }
    let stuck := { fetchAct with preempt := true, boundary := true, inflight := [flying true false] }
    let at_ := fun (a : Act) => withAct (fun _ => a) world
    let frozen := { frozenAct 8 0 .served with preempt := true, handle := mkHandle 0 0 1 }
    let w := landDue asked.inflight.length asked.key (at_ asked)
    (slotAct (at_ asked) 0 0).isSome && (findAct w asked.key).any (fun x => x.inflight.isEmpty && !frozenByTimedLoad x && canHandle w x)
    && (findAct (landDue 1 stuck.key (at_ stuck)) stuck.key).any frozenByTimedLoad
    && settled (at_ frozen) frozen && (slotAct (at_ frozen) 0 0).any (fun x => decide (x.status = .frozen ∧ x.preempt ∧ x.handle ≠ 0))
    && (let h := { frozenAct 8 0 .delivered with key := (.handler 0 { inst := 0, task := 0, index := 0 } 0), task := 1 }
        (oldest ((acts (at_ h)).filter fun y => awaitsHandler y && (endsRun (at_ h) y || canHandle (at_ h) y))).any isHandler)
    && (let bare := withDev (fun d => { d with runs := [{ worldRun with image := { worldImage with tasks := [fetchTask] } }] }) (at_ (frozenAct 8 0 .delivered))
        (oldest ((acts bare).filter fun y => awaitsHandler y && (endsRun bare y || canHandle bare y))).any fun y =>
          !isHandler y && (actRun bare y).any fun r => (imgHandler r.image).isNone)
    && (let t := at_ (frozenAct 8 0 .delivered)
        (oldest ((acts t).filter fun y => awaitsHandler y && (endsRun t y || canHandle t y))).any fun y =>
          !isHandler y && (actRun t y).any fun r => (imgHandler r.image).isSome)) = true := by decide

/-- PlacementAndPower: two dies that choose one activation, a die whose choice a lower one has just taken, a live line on the core. -/
theorem wit_Distributors : (
    let x := { fetchAct with place := none, status := .pending }
    let y := { x with key := .ordinary 0 ⟨0, 2, 5⟩, stamp := ⟨0, 2, 5⟩, task := 2 }
    let awake := fun (d : Dev) => { d with cores := (d.cores.set 0 { Core.reset with power := .awake, l1 := [(131072, [])] }).set 8 { Core.reset with power := .awake } }
    let s := withAct (fun _ => x) (withDev (fun d => { awake d with runs := [{ worldRun with dieMask := 15 }] }) world)
    let t := placeOn (withDev (fun d => { d with others := y :: d.others }) s) x 0
    let u := { t with dev := { t.dev with placedAt := t.dev.placedAt.set 0 (t.dev.cycle + 1), placedKey := t.dev.placedKey.set 0 (some x.key) } }
    (choiceOf s 0).any (fun a => decide (a.key = x.key)) && (choiceOf s 1).any (fun a => decide (a.key = x.key)) && mayAct s.dev.placedAt 0 s.dev.cycle
    && (choiceOf u 1).any (fun a => decide (a.key = y.key) && !contested u 1 a && lostChoice u 1 a) && mayAct u.dev.placedAt 1 u.dev.cycle
    && decide ((getCore s.dev 0).l1 ≠ []) && !mayAct u.dev.placedAt 0 u.dev.cycle) = true := by decide

set_option exponentiation.threshold 4096 in
set_option maxRecDepth 20000 in
/-- CellsAndLiveWrites: an owner with a notice, a cell whose base word is bad, each way an access comes before another, a live ATOMR. -/
theorem wit_LiveTurns : (
    let l := fun (seq : Nat) (op : LiveOp) (u : LiveUnit) (rel : Bool) (reach : Nat) =>
      ({ who := fetchAct.key, seq := seq, addr := 131072, op := op, core := 0, reach := reach, released := rel, unit := u, counts := none } : LiveReq)
    let may := fun (q : List LiveReq) (n : Nat) => (q[n]?).any fun y => mayPerform { world.dev with liveq := q } n y
    may [l 0 (.store [1]) .slot false 0] 0 && !may [l 0 (.store [1]) .slot false 0, l 1 (.store [1]) .slot false 0] 1
    && !may [l 0 (.fence .die) .slot false 0, { l 1 (.store [1]) .slot false 0 with addr := 131200 }] 1
    && !may [l 0 (.store [1]) .slot true 0, { l 1 (.store [1]) .slot true 0 with addr := 131200 }] 1
    && !may [l 0 (.store [1]) .slot false 0, { l 1 (.release [1] .core) .slot false 0 with addr := 131200 }] 1
    && may [l 0 (.store [1]) .slot false 1, { l 1 (.release [1] .core) .slot false 0 with addr := 131200 }] 1
    && may [l 0 (.atomr .swap 64 5) .slot false 0] 0
    && (let p : Pend := { dest := .s 5, val := 0, tag := 0, stale := false, wait := .liveAtomr 0 }
        decide (({ fetchAct with pend := [p] } : Act).pend = [p]) && !badIn world.dev 131072 8)
    && (let w := frameAddr true 0 0
        let h : Hist := { stamp := stampZero, seq := 0, lane := 0, op := .store 255, val := 5 }
        let c : Cell := { word := w, run := 0, hist := [h], readers := [] }
        let s := withDev (fun d => { d with cells := [c], bad := [w] }) { ahead with dev := { ahead.dev with others := [] } }
        decide (findCell s.dev w = some c) && badIn s.dev w 8 && phaseLt (phaseOf h.stamp) (ridgeOr s 0))) = true := by decide

/-- UnitsAndEngines: copies that count, wait, fail, end, and cannot start; collectives whose member is gone or disagrees. -/
theorem wit_Engines : (
    let block := { copyCmd.block with dst := 64 }
    let near := { copyCmd with block := block, uncounted := 248 }
    let queued := fun (l : List CopyCmd) => withDev (fun d => { d with copies := d.copies.set 0 l }) world
    let peer : PeerCmd := { device := 1, group := 3, tag := 0, ordinal := 0, op := 0, type := 2, mode := 0, redop := 0, root := 0, count := 1, src := [], failed := none, torn := false, times := [] }
    let two := withDev (fun d => { d with domain := [0, 1], routes := [{ device := 1, ports := [11] }] }) world
    let c := collCmd 3
    mayStart (queued [near]).dev 0 near && !engineHeld world world.act 0 && !engineHeld world world.act 4
    && (match copyElem (queued [near]) world.act { near with started := true } with | (u, .done bs) => decide (256 ≤ near.uncounted + bs.length) && !engineHeld u world.act 0 | _ => false)
    && (match copyElem ahead ahead.act { copyCmd with block := { block with dst := (ptr 3 0).toNat } } with | (_, .waits) => true | _ => false)
    && (match copyElem world world.act { copyCmd with block := { block with src := (ptr 1 0).toNat } } with | (_, .failed c _) => decide (c = 10) | _ => false)
    && (let four := List.replicate 4 { copyCmd with started := true } ++ [copyCmd]
        decide (4 ≤ ((queued four).dev.copies[0].filter (·.started)).length) && decide ((queued four).dev.copies[0][4]? = some copyCmd))
    && (match mayStart (queued [{ copyCmd with done := 4, started := true, closing := true, uncounted := 32, failed := some (10, 0) }]).dev 0 { copyCmd with done := 4, started := true } with | b => b)
    && memberGone world.dev c && memberGone two.dev { c with peers := [{ peer with torn := true }] } && !memberGone two.dev c && !allArrived 0 c
    && !memberGone two.dev { c with peers := [{ peer with op := 2 }] } && allArrived 0 { c with peers := [{ peer with op := 2 }] } && !agrees 0 c.block { peer with op := 2 }
    && agrees 0 c.block peer && !collWaits two two.act c && (members c.block.group).contains peer.device) = true := by decide

/-- ArraySteps: the next row's and entry's time has not come. -/
theorem wit_ArrayTimes : decide (world.dev.cycle < ({ getCore fed.dev 0 with rowAt := 7 } : Core).rowAt ∧ (getCore fed.dev 0).rowAt ≤ fed.dev.cycle ∧
    world.dev.cycle < ({ getCore fed.dev 0 with entryAt := 7 } : Core).entryAt) = true := by decide

/-- PacketsAndQueues: packets that wait once they have been judged, a rejected one, an outcome of another device. -/
theorem wit_Waits : (
    let at_ := fun (q : Queue) => withQueue q world
    let head := fun (p : Packet) (run : Option Nat) (j : Bool) =>
      let q := { queue [p] 64 run with judged := j }
      (headPacket (at_ q) 3).isSome && pktTypeOk p && (j || (rejectCode (at_ q).dev q p).isNone)
    let start := packet 1 1 [(4, 5), (1, 0), (1, 0), (1, 1), (1, 0), (4, 4), (8, 77)]
    head start (some 0) true && decide (rejectCode world.dev (queue [] 64 (some 0)) start ≠ none) && head (packet 3 0x10 [(1, 0), (4, 1)]) none false
    && head (packet 5 0 [(1, 1)]) (some 0) false && grantedLeft { worldRun with nextInstant := 1, allowance := 8 } && head (packet 5 0 [(1, 0)]) none true
    && (let two := withDev (fun d => { d with domain := [0, 1], routes := [{ device := 1, ports := [11] }]
                                              remote := [{ who := fetchAct.key, seq := 0, core := 0, device := 1, handle := 3, packet := start, status := 131072 }] }) world
        (two.dev.remote[0]?).any (fun w => reachable two.dev w.device && !reachable world.dev w.device) && decide ((1 : Nat) ∈ [1, 2, 4, 5]))) = true := by decide

/-- HostRequests and BootResetAndSurroundings: ports up and down, minimal mode, a RESET in progress, a queue with a run. -/
theorem wit_Ports : (
    let minimal := { world.dev with boot := .minimal }
    heard world.dev false && heard world.dev true && heard minimal false && !heard { minimal with ethernet := minimal.ethernet.set 0 false } false
    && !heard { world.dev with ethernet := Vector.replicate 8 false } false && heard { world.dev with ethernet := Vector.replicate 8 false } true
    && ({ world.dev with resetting := some 7 } : Dev).resetting.isSome && world.dev.resetting.isNone
    && (currentQueue (withQueue (queue [] 64 (some 0)) world).dev 3).any (fun q => decide (q.run = some 0))) = true := by decide

set_option exponentiation.threshold 4096 in
set_option maxRecDepth 20000 in
/-- TrapEntry: an XLAT whose tile the resident service can map, and one it cannot. -/
theorem wit_TrapRepair : (
    let s := withDev (fun d => { d with runs := [{ worldRun with tables := [{ table 1 .ordered 0 with entries := [], view := [] }], hbmFrames := [], loftFrames := [] }] }) world
    let a := world.act0
    let v := yieldCore { s with act := freezeAct a TrapRec.zero .delivered } a
    !speculative s a && (serviceMap v 0 (ptr 1 0).toNat).any (fun w => decide (w.act = freezeAct a TrapRec.zero .delivered))
    && (serviceMap v 0 (ptr 1 65536).toNat).isNone) = true := by decide

/-- StepRunsDecodedInstruction: no register is bad and the bundle is not held back; BundleCommit: an ordinary activation ends. -/
theorem wit_StepPremises : (
    let s := { placeWord State.reset 0x80400000#32 with agenda := [] }
    let f := focusOn s fetchAct.key
    let l := landAll f.act.inflight.length { f with act := { f.act with status := .ready } }
    let r := endDuePass l
    r.act.badRegs.isEmpty && !heldBack r r.act && !frozenByTimedLoad l.act && heldBack r { r.act with hold := some (.ridge (some (0, 0))) }
    && (match fetchAct.key with | .ordinary _ _ => true | _ => false)) = true := by decide

set_option exponentiation.threshold 4096 in
set_option maxRecDepth 20000 in
/-- RegisterFrames and StoreFrames: a wait on a feed, a push, FBIND, FUNBIND and FFLUSH alone in their bundle. -/
theorem wit_FramesAlone : ([(Instr.waitFeed (.clk 0) 0, withFeed (feed false 0 [entry] none) world), (.vstFeedPush (.clk 0) 5 0, withFeed (feed true 0 [] none) world),
      (.fbind (.clk 0) 1 0, withBytes [(2 ^ 41, battenBytes 64)] world), (.funbind (.clk 0) 0, withFeed (feed false 0 [] none) world),
      (.fflush (.clk 0) 0, withFeed (feed false 0 [] none) world)].all fun x => runs x.2 x.1 && decide (x.2.iss.ctl ≠ .endAct) && decide (feedOf x.2.act 0 = feedOf x.2.act0 0)
        && match exec x.1 x.2 with | .next u => decide (u.iss.status = .running) | _ => false) = true := by decide

/-- VectorCompareSelectConvert, ArithmeticRoundsOnce: operands of every kind, and a wider and a narrower format for each infinity. -/
theorem wit_Operands : (
    let d := decodeF fmtF32
    d 0x7FC00001 = .nan false true 1 ∧ d 0x7F800000 = .inf false ∧ d 0 = .fin false 0 (-149) ∧ d 0xBF800000 = .fin true (2 ^ 23) (-23) ∧
    fmtF32.ebits + fmtF32.fbits < fmtF64.ebits + fmtF64.fbits ∧ ¬ fmtF32.ebits + fmtF32.fbits < fmtE4M3.ebits + fmtE4M3.fbits ∧
    sextInt 32 0 = 0 ∧ sextInt 32 7 ≠ 0) := by decide

/-- VectorReductions: a float SCAN; ExactAccumulation: both lane types; TileReads: a scaled element of every kind. -/
theorem wit_ScanAndScales : (runs world (.vredScan (.clk 0) 5 6 .f32 .dyn) && runs world (.vredFsumx (.clk 0) 5 6 .f64 .dyn)
    && decide (ltFloat .f32 = true ∧ lanes (ltWidth .f32) = 64) && decide (decodeF fmtF32 0x3F800000 = .fin false (2 ^ 23) (-23))
    && decide (({ Elem.zero with pinf := true } : Elem).pinf = !({ Elem.zero with pinf := true } : Elem).ninf)) = true := by decide

/-! ## Results of single slots, worked out by hand from the rules -/

set_option maxRecDepth 20000
set_option exponentiation.threshold 4096

/-- The value a slot puts in flight or under interlock. -/
def value (s : State) (i : Instr) : Option Nat :=
  match exec i s with
  | .next u => match u.act.inflight.getLast?, u.act.pend.getLast? with
    | some f, _ => some f.val.toNat
    | none, some p => some p.val.toNat
    | none, none => none
  | _ => none

/-- R98: 2^64 - 1 and 2 as sA and sB. -/
theorem test_salu : (let s := withS [(6, 0xFFFFFFFFFFFFFFFF), (7, 2)] world
    [Instr.add (.clk 0) 5 6 7, .sub (.clk 0) 5 7 6, .sar (.clk 0) 5 6 7, .shr (.clk 0) 5 6 7, .rotr (.clk 0) 5 7 7, .min (.clk 0) 5 6 7, .minn (.clk 0) 5 6 7,
      .slt (.clk 0) 5 6 7, .sltn (.clk 0) 5 6 7, .andn (.clk 0) 5 6 7, .clz (.clk 0) 5 7, .ctz (.clk 0) 5 7, .popc (.clk 0) 5 6, .ctz (.clk 0) 5 0].map (value s)) =
    [some 1, some 3, some (2 ^ 64 - 1), some (2 ^ 62 - 1), some (2 ^ 63), some (2 ^ 64 - 1), some 2, some 1, some 0, some (2 ^ 64 - 3), some 62, some 1, some 64, some 64] := by
  decide

/-- R70, R99: the division cases and the high halves of products of -2^63 and -1, and of 7 and 0. -/
theorem test_smul : (let s := withS [(6, 2 ^ 63), (7, 0xFFFFFFFFFFFFFFFF), (8, 7)] world
    [Instr.div (.clk 0) 5 6 7, .rem (.clk 0) 5 6 7, .div (.clk 0) 5 8 0, .rem (.clk 0) 5 8 0, .divn (.clk 0) 5 8 0, .mulh (.clk 0) 5 6 7, .mulhn (.clk 0) 5 6 7,
      .mul (.clk 0) 5 7 7, .div (.clk 0) 5 7 8, .rem (.clk 0) 5 7 8].map (value s)) =
    [some (2 ^ 63), some 0, some (2 ^ 64 - 1), some 7, some (2 ^ 64 - 1), some 0, some (2 ^ 63 - 1), some 1, some 0, some (2 ^ 64 - 1)] := by decide

/-- R56: LI with no extension, with one and with two. -/
theorem test_li : ([[], [0x1FFFFF], [1, 0]].map fun l => value { world with iss := { world.iss with ext := l } } (.li (.clk 0) 5 0x400)) =
    [some (2 ^ 64 - 1024), some (2 ^ 64 - 1024), some (2 ^ 32 + 1024)] := by decide

/-- R37, R102: a write of FPC with RM 000 keeps the mode and takes the enables. -/
theorem test_csrw_fpc : (match exec (.csrw (.clk 0) 6 0x000) (withS [(6, 0xFFFFFFFFFFFFFF00)] world) with
    | .next u => some u.act.fpc | _ => none) = some 0x1F01 := by decide

/-- R142, R69: 100 + 100 in byte lanes, wrapping and saturating; R62: 1.5 × 2 in f32. -/
theorem test_vector : (let s := withAct (fun a => { a with v := (a.v.set 6 100).set 7 0x3FC00000 |>.set 8 0x40000000 }) world
    [Instr.vadd (.clk 0) 5 6 6 .i8 .dyn, .vadd (.clk 0) 5 6 6 .i8 .sat, .vmul (.clk 0) 5 7 8 .f32 .dyn].map (value s)) =
    [some 200, some 127, some 0x40400000] := by decide

/-- R42-R44, R122: little-endian bytes; a signed half; memory as it stood before the bundle. -/
theorem test_load : (let s := withBytes [(2 ^ 41, [0x34, 0x82, 1, 0])] world
    [value s (.ld (.clk 0) 5 0 .i16 0), value s (.ld (.clk 0) 5 0 .n16 0), value s (.ld (.clk 0) 5 0 .i8 2)]) =
    [some (2 ^ 64 - 0x10000 + 0x8234), some 0x8234, some 1] := by decide

theorem test_store : (match exec (.st (.clk 0) 6 0 .i16 2) (withS [(6, 0xABCDEF)] world) with
    | .next u => memReadBytes u.dev.mem (2 ^ 41 + 3) 4 | _ => []) = [0, 0xEF, 0xCD, 0] := by decide

/-- R288: a signed minimum of 32 bits; R290: CAS compares with the old sD and returns what memory held. -/
theorem test_atomics : (let s := withS [(5, 9), (6, 8), (7, 0xFFFFFFFF)] (withBytes [(2 ^ 41 + 8, bytesOfNat 8 9)] world)
    (match exec (.atomMin (.clk 0) 6 7 .w32) s with | .next u => some (memReadNat u.dev.mem (2 ^ 41 + 8) 8) | _ => none,
     match exec (.cas (.clk 0) 5 6 7 .w64) s with | .next u => some (memReadNat u.dev.mem (2 ^ 41 + 8) 8, u.act.pend.getLast?.map (·.val.toNat)) | _ => none)) =
    (some 0xFFFFFFFF, some (0xFFFFFFFF, some 9)) := by decide

/-- R113: the last pass of two levels that end together pops both. -/
theorem test_loop_pass : (match exec .loopPassEnd (looping [level 2 1 4 2, level 3 0 0 3] true) with
    | .next u => some (u.act.loops, u.act.pc) | _ => none) = some ([level 3 1 0 3], 0) := by decide

/-- R98, R61, R373: PADD over its window: WIN in slot 0, TADDR sA, TINFO sB. -/
theorem test_padd_trap : (match exec (.padd (.clk 0) 5 6 7) (withS [(6, 5), (7, 0xFFFFFFFFFFFFFFFA)] world) with
    | .next u => u.act.frozen.map fun f => (f.record.cause, f.record.addr, f.record.info) | _ => none) = some (0x107, 5, 0xFFFFFFFFFFFFFFFA) := by decide

/-- R111: a body of one bundle of nine slots (one stop bit) is skipped whole: 36 bytes. -/
theorem test_skip_body : skipBundles ((List.range 9).flatMap fun i => bytesOfNat 4 (if i = 8 then 2 ^ 31 else 0)) 1 0 = 36 := by decide

/-- R26: an older fixed result lands on a register that awaits an interlocked one: the value is there, the awaited tag stays. -/
theorem test_awaited_tag : (let p : Pend := { dest := .s 5, val := 1, tag := 2, stale := false, wait := Awaiting.ready }
    let f : InFlight := { dest := .s 5, val := 7, tag := 0, due := 3, issued := 1, stale := false, timed := false, arrived := true, memx := none }
    let a := landFixed { world.act with pend := [p], sTag := world.act.sTag.set 5 2 } f
    (readS a 5, tagS a 5)) = (7, 2) := by decide

/-- R25: of two results due in one cycle the earlier issued lands first, whatever their order in the list. -/
theorem test_landing_tie : 
    (let f := fun (x : Vec) (n : Nat) => ({ dest := .s 5, val := x, tag := 0, due := 9, issued := n, stale := false, timed := false, arrived := true, memx := none } : InFlight)
    (firstDue [f 1 4, f 2 3]).map (·.val)) = some 2 := by decide

/-- R21, R22: a step issues the placed word, puts its result in flight, spends a core cycle and goes on to the next bundle. -/
theorem test_step : (match step (State.reset.withFetchWord 32 0x81650003) with
    | .next u => some (u.act.pc, u.dev.cycle, u.act.inflight.map fun f => (f.dest, f.tag, f.due)) | _ => none) = some (4, 1, [(.s 5, 30, 1)]) := by decide

/-! ## Witnesses of the clauses on what is narrow, behind, saved, taken or torn -/

/-- Loops: a bundle that ends, eight words that do not, a section that ends first; a body of two bundles. -/
theorem wit_Bodies : (
    let open_ := (List.range 8).flatMap fun _ => bytesOfNat 4 0
    let ends := fun (p i : Nat) => (codeWord threeBundles (p + 4 * i)).any (·.getLsbD 31)
    fetchBundle threeBundles 4 = .ok [0x80400000#32] && decide (fetchBundle open_ 0 = .open_ (List.replicate 8 0)) && decide (fetchBundle open_ 4 = .off)
    && (List.range 2).all (fun i => (codeWord threeBundles (4 * i)).isSome) && decide ((List.range 2).countP (ends 0) = (level 2 0 0 2).len) && ends 0 1
    && endsBody threeBundles { fetchAct with loops := [level 2 0 0 2] } 4 && !endsBody threeBundles fetchAct 4) = true := by decide

/-- A live access of the trapped activation's handler on the same word, one that has reached the core, and a pending LDACQ. -/
def kinOf (seq : Nat) (op : LiveOp) : LiveReq := { liveR seq op with who := .handler 0 stampZero 0, core := 9 }

/-- SequenceAndWaits, LiveMemoryGroup, CellsAndLiveWrites: each way a read of a word is too early, a word with an uncorrectable error. -/
theorem wit_Narrow : (
    let s := withS [(6, ptr 3 0), (7, 1)] world
    let by_ := fun (q : LiveReq) => narrowStore (flyingLive [q] s).dev0 0 fetchAct.key 1 131072 8
    let may := fun (q : List LiveReq) (n : Nat) => (q[n]?).any fun y => mayPerform { s.dev with liveq := q } n y
    by_ (liveR 0 (.store [1])) && by_ (kinOf 0 (.store [1])) && by_ { kinOf 5 (.store [1]) with who := .steward 0 0, core := 1, reach := 2 } && !by_ (liveR 1 (.store [1]))
    && badIn { s.dev0 with bad := [131079] } 131072 8 && okAt s (ptr 3 0) 8 8 .liveOnly false .live && okAt s (ptr 3 0) 16 16 .liveOnly false .live
    && (let p := fencing (flyingLive [liveR 0 (.store [1])] s); fenced p.dev p.act0.key && !fenced p.dev0 p.act0.key && !(ownLive p.dev0 p.act0.key).isEmpty)
    && (let p := withDev (fun d => { d with copies := d.copies.set 0 [copyCmd] }) s; engineLeft p.dev0 p.act0.key)
    && liveBlocked ahead ahead.dev0 ahead.act0 && decide (scopeLevel .system = 3 ∧ scopeLevel .die = 2)
    && !may [kinOf 0 (.store [1]), { liveR 1 (.acquire .device) with core := 0 }] 1 && may [liveR 0 (.acquire .device)] 0 && !may [liveR 0 (.acquire .core), { liveR 1 (.store [1]) with addr := 131200 }] 1
    && !may [kinOf 0 (.store [1]), { liveR 1 (.fence .die) with addr := 0 }] 1) = true := by decide

/-- CellsAndLiveWrites: an update that ends a generation while a write it counts is on its way. -/
theorem wit_CountInOrder : (
    let u : EngineUse := { run := 0, stamp := stampZero, seq := 0, arrival := 131136, size := 8, counted := 0, covered := 0, seen := [] }
    let w : LiveReq := { liveR 0 (.store [1]) with unit := .engine, counts := some (131136, 8) }
    let c : LiveReq := { liveR 0 (.count 8) with unit := .engine, addr := 131136 }
    let d := { (withBytes [(131144, bytesOfNat 8 8)] world).dev with liveq := [w, c], engineUses := [u] }
    countedWith d c 8 w && decide (memReadNat d.mem 131144 8 % 2 ^ 48 = 8) && !mayPerform d 1 c && mayPerform { d with liveq := [c] } 0 c) = true := by decide

/-- CopyCommands and CollectiveCommand: an arrival word with an uncorrectable error. -/
theorem wit_BadWord : (
    let s := armed (copyBytes 4) 8 world
    ptrOk s (ptr 3 64) 16 && badIn { s.dev with bad := [131136 + 12] } 131136 16 && !badIn s.dev 131136 16) = true := by decide

/-- ReturnAndKill: a handle of a parked activation, with and without a command that is not over. -/
theorem wit_KillParked : (
    let s := withS [(6, mkHandle 0 0 1)] (serving { fetchAct with status := .parked })
    runs s (.kill (.clk 0) 6 7) && (frozenTarget s (mkHandle 0 0 1)).isNone
    && (sysTarget s (mkHandle 0 0 1)).any (fun x => !endBusy s.dev x && drained x && !arrayBusy s.dev x && endBusy { s.dev with copies := s.dev.copies.set 0 [copyCmd] } x)) = true := by decide

/-- SnapshotAccess and PlacementAndPower: an activation saved by CTXSV, under a handle, with a core for it. -/
theorem wit_Saved : (
    let v := { savedOf world fetchAct with tiles := [], banks := none, image := some (scratchAddr stewardBase.act0 0) }
    let x := { fetchAct with place := none, status := .pending, saved := some v }
    let s := serving x
    runs s (.snapr (.clk 0) 5 6 7) && runs s (.snapw (.clk 0) 5 6 7)
    && (sysTarget s (mkHandle 0 0 1)).any (fun y => y.saved.isSome && (findAct s y.key).isSome && (let z := fromImage s y
        z.saved.isSome && decide (8 * 0 < scratchExtent s z) && (actRun s y).isSome && (imgTask worldImage y.task).isSome
        && decide (lowestSlot (putAct s z) 0 = some 0)))
    && (fromImage s { x with saved := some { v with image := none } }).frozen.isNone) = true := by decide

/-- PreemptionAndHandlers: no frozen activation waits, and a trap without one does. -/
theorem wit_Orphan : (
    let o : OrphanTrap := { run := 0, stamp := stampZero, record := TrapRec.zero, seq := 3, met := none }
    let s := withDev (fun d => { d with orphanTraps := [o, { o with met := some TrapRec.zero }] }) world
    let bare := withDev (fun d => { d with runs := [{ worldRun with image := { worldImage with tasks := [fetchTask] } }] }) s
    ((acts s).filter fun y => awaitsHandler y && (endsRun s y || canHandle s y)).isEmpty && (findRun s.dev o.run).any (fun r => (imgHandler r.image).isSome)
    && (findRun bare.dev o.run).any (fun r => (imgHandler r.image).isNone) && (findAct s fetchAct.key).isSome) = true := by decide

/-- RetirementAndInstants and TrapEntry: a trap held while speculative, one behind effects still held, one delivered. -/
theorem wit_Stages : (
    let at_ := fun (g : FrozenStage) => withAct (fun _ => frozenAct 8 0 g) world
    let behind := withAct (fun a => { a with held := [{ seq := 0, op := .live 131072 (.store [1]), core := 0 }] }) world
    [FrozenStage.held, .behind, .delivered].all (fun g => !speculative (at_ g) (at_ g).act && (at_ g).act.held.isEmpty && (at_ g).act.frozen.isSome)
    && !speculative behind behind.act0 && !behind.act0.held.isEmpty && world.act0.held.isEmpty && world.act0.saved.isNone && (findRun world.dev 0).isSome) = true := by decide

/-- UnitsAndEngines: a live element of two words is taken first, a contribution is taken first, a member's failure. -/
theorem wit_Taken : (
    let c := { copyCmd with block := { copyCmd.block with src := (ptr 3 256).toNat, dst := 64, esize := 4 } }
    let two := withDev (fun d => { d with domain := [0, 1], routes := [{ device := 1, ports := [11] }] }) world
    let peer : PeerCmd := { device := 1, group := 3, tag := 0, ordinal := 0, op := 0, type := 2, mode := 0, redop := 0, root := 0, count := 1, src := [0, 0, 0, 0]
                            failed := some { code := 9, rounded := 1, delivered := 0 }, torn := false, times := [] }
    let g := { collCmd 3 with peers := [peer], took := some [1, 0, 0, 0] }
    let done := { collCmd 1 with took := some [1, 0, 0, 0] }
    (match copyElem world world.act c with | (_, .took bs) => decide (bs.length = 16) | _ => false)
    && (match copyElem world world.act { c with took := some (List.replicate 16 1) } with | (_, .done bs) => decide (bs.length = 16) | _ => false)
    && (match readContribution world.act 0 0 4 1 0 world with | (_, .ok src) => decide (src.length = 4) | _ => false)
    && (match collEnd world world.act done with | (_, .done _ _) => true | _ => false)
    && (match collEnd world world.act (collCmd 1) with | (_, .done _ _) => true | _ => false)
    && !memberGone two.dev g && allArrived 0 g && g.peers.all (agrees 0 g.block) && (g.peers.findSome? (·.failed)).isSome && !collWaits two two.act g) = true := by decide

/-- HostRequests and BootResetAndSurroundings: a run torn down that holds its key slot, minimal mode, a port with failed resends. -/
theorem wit_Torn : (
    let d := { world.dev with runs := [], torn := [{ run := worldRun, ridge := (0, 0) }] }
    (holders d).any (fun r => r.keySlot = 0) && (holders d).all (fun r => r.keySlot ≠ 63) && (reclaim d 0).torn.isEmpty && heard { d with boot := .minimal } true
    && decide (({ d with boot := .minimal } : Dev).boot = .minimal ∧ d.resetting = none) && (d.ports[11]).up && !heard { d with ethernet := Vector.replicate 8 false, management := false } true) = true := by decide

/-! ## Witnesses of the clauses on rows, moves, conflicts, ends and reports -/

/-- ArraySteps: a row of an MMAS with both feeds' data and one more row to come, an open hold between others, a weight bank of each format. -/
theorem wit_ArrayRows : (
    let m : MulCmd := { owner := fetchAct.key, serial := 1, tile := 0, bank := false, feed := 0, afmt := .e4m3, sparse := true, first := 3, n := 2, done := 0, latches := [], added := [], holds := [] }
    let x := withAct (fun a => { a with feeds := a.feeds.set 1 (some (arrayFeed [entry])) }) fed
    let s := withCore (fun c => { c with mulq := [m], w0 := { c.w0 with cur := some 256, ready := true } }) x
    let c := getCore s.dev 0
    let b : Tile := { Tile.init with busy := [(3, some 9), (3, none), (4, none)] }
    let w : WldCmd := { owner := fetchAct.key, serial := 0, bank := true, feed := 0, fmt := 5, done := 191, was := none }
    decide (c.mulq = [m] ∧ c.w0.cur = some 256 ∧ c.w0.ready ∧ c.rowAt ≤ s.dev.cycle ∧ c.wq = []) && (findAct s m.owner).isSome
    && [(0 : EReg), 0 + 1].all (fun e => (feedOf s.act e).any fun g => !g.batten.out && decide (g.pos < battenEntries g.batten ∧ g.buf = [entry] ∧ entry.fault = none))
    && decide (m.done + 1 ≠ m.n ∧ ({ m with n := 1 } : MulCmd).done + 1 = 1 ∧ b.busy = [(3, some 9)] ++ (3, none) :: [(4, none)] ∧ (3, none) ∉ [((3 : Nat), some (9 : Nat))])
    && decide (w.done + 1 = streamLength w.fmt ∧ ({ w with done := 0 } : WldCmd).done + 1 ≠ streamLength w.fmt)
    && decide (256 / 256 % 2 = 1 ∧ 256 % 8 ≤ 2 ∧ 5 / 256 % 2 = 0 ∧ 5 % 8 = 5 ∧ 4 % 8 = 4 ∧ 3 % 8 = 3)
    && (weightAt 256 [] 0 0).isSome && (weightAt 256 [] 1 0).isNone) = true := by decide

/-- StructuralChecks: a parent's tag, a descendant's, a pair and what is none, an undefined kA, definitions under and beside K, mixed tags. -/
theorem wit_Moves : (
    let on := fun (t : Nat) (n : Nat) => withAct (fun a => { a with sTag := (a.sTag.set 6 (BitVec.ofNat 5 t)).set 7 (BitVec.ofNat 5 n) }) clocked
    let at_ := fun (s : State) (i : Instr) => structural s i
    let two := fun (c : Checked) => match c with | .trap 3 x => decide (x / 2 ^ 37 = 2) | _ => false
    let go := fun (c : Checked) => match c with | .go _ _ => true | _ => false
    go (at_ (on 0 0) (.whenScalar (.clk 1) 5 6)) && two (at_ (on 1 0) (.whenScalar (.clk 1) 5 6)) && go (at_ (on 3 0) (.currScalar (.clk 0) 5 6))
    && two (at_ (on 31 0) (.currScalar (.clk 0) 5 6)) && go (at_ (on 1 2) (.mergeScalar (.clk 0) 5 6 7)) && two (at_ (on 1 1) (.mergeScalar (.clk 0) 5 6 7))
    && two (at_ (on 3 4) (.mergeScalar (.clk 0) 5 6 7)) && two (at_ (on 0 14) (.mergeScalar (.clk 0) 5 6 7)) && two (at_ (on 0 2) (.mergeScalar (.clk 0) 5 6 7))
    && decide (at_ clocked (.clkq (.clk 0) 5 13) = .trap 4 (13 * 2 ^ 32 + slotWord clocked)) && go (at_ clocked (.clkq .first 5 1))
    && go (at_ (on 3 0) (.clkon (.clk 3) 4 6)) && descends clocked.act0 1 14 3 && (match at_ (on 3 0) (.clksplit (.clk 3) 1 6) with | .trap 3 x => decide (x / 2 ^ 32 = 3 * 32 + 1) | _ => false)
    && decide (commonTag (on 1 0) [.s 6, .s 7] = 1) && (match at_ (on 1 0) (.add .first 5 6 7) with | .trap 3 x => decide (x / 2 ^ 32 = 32) | _ => false)) = true := by decide

/-- BundleChecks: what a mask may name: an undefined word, X slots before a slot that takes none, two pops of a feed, two control slots. -/
theorem wit_Masks : (
    let x := Instr.literalExtension 5
    let pop := Instr.vldFeedPop (.clk 0) 5 0
    decide (misusedFrom [x, x, x, .addi (.clk 0) 5 0 0] 0 [] = [0, 1, 2]) && decide (misusedFrom [x, .nop (.clk 0)] 0 [] = [0]) && decide (misusedFrom [x, .addi (.clk 0) 5 0 0, x] 0 [] = [2])
    && decide (clashing [pop, .vldFeedPop (.clk 0) 6 0] = [0, 1]) && decide (clashing [.mmasW0 (.clk 0) 0 1 5, .fbind (.clk 0) 2 6] = [0, 1]) && decide (clashing [pop, .nop (.clk 0)] = [])
    && decide (Machine.crowded [.nop (.clk 0), .br (.clk 0) 2] = [0, 1]) && (7 : Nat).testBit 2 && !(7 : Nat).testBit 3) = true := by decide

/-- BundleCommit: an LNEXT on the last pass of the one level, an END of a handler with others beside it, an access of it on its way, a bundle
that switches at a WAIT. -/
theorem wit_Ends : (
    let h := ActKey.handler 0 stampZero 0
    let s := withAct (fun a => { a with key := h, task := 1 }) world
    decide ((level 2 1 0 1).index + 1 = (level 2 1 0 1).count) && decide (codeOf world world.act = codeOf world world.act0)
    && isHandler s.act && !s.dev.others.isEmpty && s.dev.others.all (fun b => b.key ≠ h) && decide (runOfKey s.act.key = some 0)
    && (flyingLive [kinOf 0 (.store [1])] s).dev.liveq.any (fun q => q.who = h) && decide ((stallSwitch world).iss.status = .switched)
    && (world.act.place).any (fun p => decide (p.core < 32))) = true := by decide

/-- PlainLoads and PlainStores: an ORDERED byte of one's own and one of a phase before, values of each mode, a held live store. -/
theorem wit_OrderedWords : (
    let w := frameAddr true 0 0
    let h := fun (i q v : Nat) => ({ stamp := ⟨i, 0, 0⟩, seq := q, lane := 0, op := .store 255, val := v } : Hist)
    let s := withDev (fun d => { d with cells := [{ word := w, run := 0, hist := [h 0 0 7, h 1 0 9], readers := [] }] }) ahead
    let at_ := fun (m : MemMode) (a : Nat) => ({ mode := m, addr := a, lc := 0 } : Located)
    (match loadAt s s.dev0 s.act0 (at_ .ordered w) 8 with | some x => decide (x.1.length = 8) | none => false)
    && decide ((histOf s.dev0 w).length = 2 ∧ phaseLt (0, 0) (1, 0) = true) && writesByte 0 (h 1 0 9) && decide (w % 8 = 0)
    && !unseenEngine s.dev0 (stampOfKey s.act0.key) (2 ^ 32) (h 1 0 9) && histLt (h 1 0 9) (h 1 1 9)
    && (loadAt world world.dev0 world.act0 (at_ .staged 65536) 8).isSome && (loadAt world world.dev0 world.act0 (at_ .live 131072) 8).isSome
    && !siblingDid world.dev 0 stampZero (fun q => decide (1 ≤ q)) 65536
    && [MemMode.staged, .ordered].all (fun m => (storeAt world world.act0 (at_ m 65536) 0 0 0 [1]).isSome) && memWf world.dev.mem
    && holdsBack ahead ahead.act0 && (findAct ahead ahead.act0.key).isSome && !holdsBack world world.act0) = true := by decide

/-- ReturnAndKill, PreemptionAndHandlers, PlacementAndPower, UnitsAndEngines, HostRequests, BootResetAndSurroundings: a live store read early,
a handler to kill, a bank given back, a member that reports, a tensor's writers, a port that has failed 16 times, a torn run's write. -/
theorem wit_Reports : (
    let q := { kinOf 0 (.store [1]) with reach := 1 }
    let r := { liveR 0 (.release [1] .system) with unit := .agent }
    let peer : PeerCmd := { device := 1, group := 3, tag := 0, ordinal := 0, op := 0, type := 2, mode := 0, redop := 0, root := 0, count := 1, src := [], failed := none, torn := false, times := [] }
    let g := { collCmd 3 with peers := [] ++ peer :: [] }
    !homeOnly (flyingLive [q] world).dev && homeOnly world.dev
    && isHandler { fetchAct with key := .handler 0 stampZero 0, status := .parked }
    && decide ((0 : Nat) ∈ [0, 1]) && (members g.block.group).contains 1 && g.peers.any (fun y => y.device = 1)
    && mayBeWritten (tensor 1 .ordered) && !mayBeWritten { tensor 1 .ordered with writers := some [] } && !mayBeWritten { tensor 1 .ordered with readers := some [0] }
    && (State.reset.dev.ports[11]).up && decide (¬ (16 : Nat) < 16)
    && !reclaimable { world.dev with liveq := [r] } 0 && reclaimable world.dev 0) = true := by decide

/-- SnapshotAccess: bad items in a register, in scratch and in the bytes of an image; TileWrites: a row that an MMA in progress has entered. -/
theorem wit_BadItems : (
    let s := serving { frozenAct 8 0 .served with badRegs := [(.s 5, 0), (.v 5, 31)] }
    (sysTarget s (mkHandle 0 0 1)).any (fun x => x.badRegs.contains (.s 5, 0) && !x.badRegs.contains (.s 6, 0) && x.badRegs.contains (.v 5, 31) && !x.badRegs.contains (.v 5, 0)
      && badIn { s.dev with bad := [scratchAddr x 8 + 7] } (scratchAddr x 8) 8 && !badIn s.dev (scratchAddr x 8) 8)
    && badIn { s.dev with bad := [4096 + 256 + 8 * 5] } (4096 + 256 + 8 * 5) 8
    && decide (15 * 384 + 16 * 23 ≤ 15 * 384 + 383 ∧ 15 * 384 + 383 < 15 * 384 + 16 * 23 + 16)) = true := by decide

/-- ArithmeticRoundsOnce: 0 times an infinity, an infinite product, a NaN addend. -/
theorem wit_FusedSpecials : decodeF fmtF32 0x80000000 = .fin true 0 (-149) ∧ fval (decodeF fmtF32 0x80000000) = 0 ∧ fval (decodeF fmtF32 0x3F800000) ≠ 0 ∧
    isNaN (decodeF fmtF32 0x7F800001) = true ∧ isNaN (decodeF fmtF32 0x7F800000) = false := by
  refine ⟨by decide, ?_, ?_, by decide, by decide⟩
  · rw [show decodeF fmtF32 0x80000000 = .fin true 0 (-149) by decide]; norm_num [fval]
  · rw [show decodeF fmtF32 0x3F800000 = .fin false (2 ^ 23) (-23) by decide]; norm_num [fval]

/-! ## Single steps of the live accesses and engines -/

/-- R270, R277: an LDACQ at device scope stalls while a store that only some parties read stands in its word; one at core scope reads it. -/
theorem test_ldacq_narrow : (
    let s := flyingLive [{ kinOf 0 (.store [7]) with who := .steward 0 0, core := 0, reach := 1 }] (withS [(6, ptr 3 0)] world)
    (match exec (.ldacq (.clk 0) 5 6 .device) s with | .next u => decide (u.iss.status = .stalled) | _ => false,
     value s (.ldacq (.clk 0) 5 6 .core))) = (true, some 7) := by decide

/-- R418: an EXACT sum of one member: its contribution is taken in one step, written in the next. -/
theorem test_collective : (
    let c := { collCmd 1 with block := { (collCmd 1).block with count := 1 } }
    let s := withBytes [(2 ^ 41, [5, 0, 0, 0])] (withDev (fun d => { d with colls := [c] }) world)
    match exec (.collectiveComplete 0) s with
    | .next u => (u.dev.colls.map (·.took), match exec (.collectiveComplete 0) u with | .next v => (v.dev.colls.length, memReadNat v.dev.mem (2 ^ 41 + 64) 4) | _ => (9, 0))
    | _ => ([], 9, 0)) = ([some [5, 0, 0, 0]], 0, 5) := by decide

/-- R189, R190: a trap met while effects are held waits behind them. -/
theorem test_trap_behind : (match exec (.brk (.clk 0)) (withAct (fun a => { a with held := [{ seq := 0, op := .live 131072 (.store [1]), core := 0 }] }) world) with
    | .next u => u.act.frozen.map (·.stage) | _ => none) = some .behind := by decide

/-! ## Witnesses and single steps of the clauses on the lines of a PREF, kept words, folds, records and results -/

/-- LiveMemoryGroup: a PREF of one live and one STAGED sector, none of them held, with room in the set. -/
theorem test_pref : (
    let s := withS [(6, ptr 3 64), (7, ptr 2 64), (8, 40)] world
    let at_ := fun (a : SReg) => match exec (.pref (.clk 0) a 8) s with
      | .next u => ((getCore u.dev 0).l1Pref, (getCore u.dev 0).l1Staged.map (·.1), decide ((getCore u.dev 0).l1 = [] ∧ u.act.seq = 1))
      | _ => ([], [], false)
    (at_ 6, at_ 7)) = (([131072 + 64, 131072 + 96], [], true), ([], [65536 + 64, 65536 + 96], true)) := by decide

/-- PlainLoads, StridedAndIndexed, LiveMemoryGroup, CellsAndLiveWrites: a store of the bundle on its way before a load, a lane and an LDACQ of its
word: what they keep is what stood before the bundle. -/
theorem test_same_bundle : (
    let s := withS [(6, ptr 3 0), (7, 5)] world
    match exec (.st (.clk 0) 7 6 .i64 0) s with
    | .next u => (u.dev.liveq.any fun q => kin q.who u.act0.key && decide (u.act0.seq.toNat ≤ q.seq) && touchesWords q 131072 8,
        match exec (.ld (.clk 0) 5 6 .i64 0) { u with dev := { u.dev with liveq := u.dev.liveq ++ [liveR 1 (.fence .device)] } } with
        | .next v => (v.act.pend.map (·.val.toNat), match exec (.liveStorePerformed 0) v with
            | .next w => (memReadNat w.dev.mem 131072 8, w.act.pend.map (·.val.toNat)) | _ => (9, []))
        | _ => ([], 9, []))
    | _ => (false, [], 9, [])) = (true, [0], 5, [0]) := by decide

/-- PlacementAndPower, CellsAndLiveWrites, ContextsAndRequests: a handler beside its activation with a store that only some parties read, one
that every party may read at the home, and none on its way. -/
theorem wit_AtHome : (
    let h := { fetchAct with key := .handler 0 stampZero 0, task := 1, place := none, status := .pending }
    let s := withDev (fun d => { d with others := h :: d.others }) world
    let q := { liveR 0 (.store [1]) with reach := 1 }
    (acts s).any (fun z => decide (z.key ≠ h.key) && kin z.key h.key && decide (z.status ≠ .ended ∧ z.status ≠ .retired))
    && !startable (flyingLive [q] s) h && isHandler h && !({ fetchAct with atHome := true } : Act).place.isNone
    && (match perform (.widen 0) (flyingLive [liveR 0 (.store [1])] (withAct (fun a => { a with atHome := true }) world)) with
        | .next u => decide (u.dev.liveq.map (·.reach) = [0]) | _ => false)
    && (match perform (.widen 0) (flyingLive [liveR 0 (.store [1])] world) with | .next u => decide (u.dev.liveq.map (·.reach) = [1]) | _ => false)) = true := by decide

/-- PlacementAndPower, CellsAndLiveWrites: code with a SPAWN, an activation of a lower task that may still run one. -/
theorem wit_MaySpawn : (
    let img := { worldImage with code := bytesOfWord (word 0 0x2E 5 6 7 0 ||| 0x80000000#32) }
    let s := withDev (fun d => { d with runs := [{ worldRun with image := img }] }) world
    let a := { fetchAct with key := .ordinary 0 ⟨0, 2, 1⟩, stamp := ⟨0, 2, 1⟩, task := 2, place := none, status := .pending }
    let reader := { tensor 2 .staged with writers := some [1], readers := some [2] }
    let u := withDev (fun d => { d with runs := [{ worldRun with image := { img with tensors := [reader] } }] }) world
    (codeWord img.code 0).any (fun w => (decodeWord w).any fun x => decide (x.instr = .spawn (.clk 0) 5 6 7)) && codeSpawns img.code
    && !siblingsBelowDone s 0 ⟨0, 2, 1⟩ && siblingsBelowDone world 0 ⟨0, 2, 1⟩ && siblingsBelowDone s 0 ⟨0, 2, 0⟩
    && (runActs u 0).any (fun z => decide (z.status ≠ .retired ∧ z.stamp.inst = 0 ∧ z.stamp.task < 1)) && phaseLt (0, 1) (0, 2)
    && !startable u a) = true := by decide

/-- CellsAndLiveWrites: an entry that two phases below the ridge fold in, a later reader that an accepted entry concerns, one that it does
not; an ATOMR's value under the store of a lower sibling. -/
theorem test_fold : (
    let w := frameAddr true 0 0
    let h := fun (i x q : Nat) (op : HistOp) (v : Nat) => ({ stamp := ⟨i, 0, x⟩, seq := q, lane := 0, op := op, val := v } : Hist)
    let c : Cell := { word := w, run := 0, hist := [h 1 0 0 (.store 2) 0x900, h 0 0 0 (.store 3) 0x708, h 3 0 0 (.store 1) 1], readers := [{ stamp := ⟨5, 0, 0⟩, inc := 2, prior := 0x901 }] }
    let d := { world.dev with cells := [c] }
    let f := foldCell d w (2, 0)
    let q : CellReq := { word := w, run := 0, who := fetchAct.key, ptr := 0, entry := h 4 0 0 (.store 4) 0x50000, reserved := false }
    (memReadNat f.mem w 8, (histOf f w).length, (acceptEntry d q).notices.map (fun z => (z.stamp.inst, z.inc)), (acceptEntry d { q with entry := h 6 0 0 (.store 4) 5 }).notices.length,
      deliveredValue { world.dev with cells := [{ c with hist := [h 0 0 5 (.store 255) 7, h 0 1 2 (.atomr .fetchadd 64 0) 5] }] } w 2 ⟨0, 0, 1⟩)) =
    (0x908, 1, [(5, 2)], 0, some 7) := by decide

/-- CellsAndLiveWrites: what each live access leaves at its home, and the MEMX of an ATOM of bad bytes. -/
theorem test_performed : (
    let m := memWriteBytes world.dev.mem 131072 (bytesOfNat 8 (3 + 2 ^ 48 * 65535) ++ bytesOfNat 8 8)
    let at_ := fun (op : LiveOp) => memReadNat (performOp m 131072 op) 131072 8
    let s := { flyingLive [liveR 0 (.atom .add 32 2)] world with dev := { (flyingLive [liveR 0 (.atom .add 32 2)] world).dev with bad := [131075] } }
    ([LiveOp.store [9, 1], .atom .minn 32 2, .atomr (.cas 3) 32 6, .count 13].map at_,
     memReadNat (performOp m 131072 (.status 9)) 131080 8, match exec (.liveStorePerformed 0) s with | .next u => u.act.deferred.map recCode | _ => [])) =
    ([265 + 2 ^ 48 * 65535, 2 + 2 ^ 48 * 65535, 6 + 2 ^ 48 * 65535, 0 + 2 ^ 48 * 1], 8 + 2 ^ 48 * 9, [0x19]) := by decide

/-- UnitsAndEngines: a feed fills once in a cycle. -/
theorem test_feed_cycle : (
    let f := { feed false 0 [] none with batten := { (feed false 0 [] none).batten with ptr := 0, dims := [(64, 1)] } }
    match exec (.feedFill fetchAct.key 0) (withFeed f world) with
    | .next u => ((u.act.feeds.toList.head?.bind id).map fun g => (g.buf.length, decide (g.nextAt = u.dev.cycle + 1)),
        match exec (.feedFill fetchAct.key 0) u with | .next v => (v.act.feeds.toList.head?.bind id).map (·.buf.length) | _ => none)
    | _ => (none, none)) = (some (1, true), some 1) := by decide

/-- UnitsAndEngines: the trap of a failed command of a speculative activation is held at once, and only once. -/
theorem test_raised : (
    let c := { copyCmd with who := ahead.act.key, failed := some (7, 3), started := true }
    let s := withDev (fun d => { d with copies := d.copies.set 0 [c] }) ahead
    match exec (.copyEngineElement 0 0) s with
    | .next u => (speculative s s.act && engineHeld s s.act 0, u.act.deferred.length + u.act.deferredHeld.length, u.dev.copies[0].map (·.raised),
        match exec (.copyEngineElement 0 0) u with | .next v => v.act.deferred.length + v.act.deferredHeld.length | _ => 9)
    | _ => (false, 9, [], 9)) = (true, 1, [true], 1) := by decide

/-- R331, R332: the CRC of 123456789, and a record of CPYSUM set out as four live stores. -/
theorem test_record : (
    let c := { copyCmd with failed := none, done := 4, started := true, record := some (131072 + 128), delivered := 32, crc := ([49, 50, 51, 52, 53, 54, 55, 56, 57] : List Byte).foldl crcByte (2 ^ 64 - 1) }
    match exec (.copyEngineElement 0 0) (withDev (fun d => { d with copies := d.copies.set 0 [c] }) world) with
    | .next u => (u.dev.liveq.map (·.addr), natAt (copyRecord c) 0 8, natAt (copyRecord c) 8 6)
    | _ => ([], 0, 0)) = ([131200, 131208, 131216, 131224], 0x995DC9BBDF1939FA, 32) := by decide

/-- R418-R421: an element of each kind of reduction, and containers of one grid and of two. -/
theorem test_reduced : (
    let b := fun (t m r : Nat) => { (collCmd 3).block with type := t, mode := m, redop := r }
    ([0, 1, 2].map fun r => (reduceElem (b 2 0 r) [5, 0xFFFFFFFF]).map (·.1), [0, 1].map fun m => (reduceElem (b 10 m 0) [0x3F800000, 0x40000000]).map (·.1),
     [2 ^ 128, 0].map fun e => (reduceElem (b 14 0 0) [2 ^ 128, 3 + e]).map (·.1))) =
    ([some 4, some 5, some 0xFFFFFFFF], [some 0x40400000, some 0x40400000], [some (3 + 2 ^ 128), none]) := by decide

/-- R418, R421: the rounding device's element first, a gather, a broadcast and a sum of two members. -/
theorem test_delivered : (
    let b := fun (op : Nat) => { (collCmd 3).block with op := op, root := if op = 3 then 1 else 0 }
    let l : List Contribution := [{ device := 0, src := [1, 0, 0, 0], times := [9] }, { device := 1, src := [2, 0, 0, 0], times := [3] }]
    (elemsOf (b 0) l.reverse 0, [2, 3, 0].map fun op => (collResult 1 (b op) l).map (·.1))) =
    ([1, 2], [some [1, 0, 0, 0, 2, 0, 0, 0], some [2, 0, 0, 0], some [3, 0, 0, 0]]) := by decide

/-- UnitsAndEngines: the cases in which matched commands agree: a result that a member cannot write, grids that differ, a source it cannot read. -/
theorem wit_CollectiveEnds : (
    let s := withDev (fun d => { d with colls := [collCmd 1] }) world
    let own : PeerCmd := { device := 0, group := 1, tag := 0, ordinal := 0, op := 0, type := 2, mode := 0, redop := 0, root := 0, count := 1, src := [], failed := none, torn := false, times := [] }
    let x := { collCmd 1 with block := { (collCmd 1).block with type := 14, dst := 256 }, took := some (bytesOfNat 32 (2 ^ 128)) }
    let fails := fun (c : CollCmd) => match collEnd s s.act c with | (_, .failed cause code _ _ _) => decide (cause = 4 ∧ code = 7) | _ => false
    allArrived 0 (collCmd 1) && !memberGone s.dev (collCmd 1) && !collWaits s s.act (collCmd 1)
    && fails { collCmd 1 with took := some [1, 0, 0, 0], block := { (collCmd 1).block with dst := 2 ^ 63 } }
    && fails { collCmd 1 with block := { (collCmd 1).block with src := 2 ^ 63 } } && agrees 0 (collCmd 1).block own
    && (match collEnd s s.act { x with peers := [{ own with device := 1, type := 14, src := bytesOfNat 32 (2 ^ 129) }] } with | (_, .failed cause _ _ _ _) => decide (cause = 3) | _ => false)
    && decide (natAt (collRecord 1 (collCmd 3) (flagNV true) 0x16 2 8) 7 1 = 1 ∧ natAt (collRecord 1 (collCmd 3) (flagNV true) 0x16 2 8) 0 4 = 16)) = true := by decide

/-- BundleCommit: a REQ that the bundle sets asks the activation in the slot, or reads 0 where there is none; END's traps. -/
theorem test_settle : (
    let s := fun (n : Nat) => let u := serving { fetchAct with frozen := none }
      { u with act := { u.act with preemptCsr := BitVec.ofNat 64 (65536 + n) }, act0 := u.act0, iss := { u.iss with ctl := .next } }
    let e := withAct (fun a => { a with key := .handler 0 stampZero 0, deferred := [{ TrapRec.zero with cause := 9 }] }) world
    let sent := fun (n : Nat) => let u := finish (s n); (u.act.preemptCsr.toNat, u.dev.others.any fun b => decide (b.key = fetchAct.key) && b.preempt)
    (sent 0, sent 3, sent (200 * 256), ((finish { e with iss := { e.iss with ctl := .endAct } }).dev.orphanTraps.map fun o => o.record.cause.toNat))) =
    ((65536, true), (3, false), (200 * 256, false), [9]) := by decide

/-- HostRequests: a range of a STAGED tensor while an instant is in flight and between grants, ranges out of every window, a service that starts. -/
theorem wit_HostRanges : (
    let r := { worldRun with instants := [{ num := 0, returned := 0 }], window := [(2, [0])] }
    let rg := fun (n len : Nat) => hostRange r n len
    decide (rg (ptr 2 8).toNat 8 = .tensor (tensor 2 .staged) 8 ∧ (tensor 2 .staged).order ≠ .live ∧ r.instants ≠ [])
    && !hostMay r (rg (ptr 2 8).toNat 8) && hostMay { worldRun with instants := [] } (rg (ptr 2 8).toNat 8) && hostMay r (rg (ptr 3 8).toNat 8)
    && [0, 3 * 2 ^ 62, 2 ^ 62 + 2 ^ 31, 2 ^ 62, (ptr 9 0).toNat, (ptr 2 0).toNat + 2 ^ 56, (ptr 2 65535).toNat].all (fun n => rg n 8 = .invalid) && decide (rg (ptr 2 0).toNat (2 ^ 20 + 1) = .invalid)
    && decide (rg (2 ^ 62 + 2 * 2 ^ 26 + 65528) 8 = .loft 2 65528)
    && (match exec (.resync 5) { world with dev := { world.dev with boot := .starting 3, reasons := [2, 3, 6] } } with
        | .next u => decide (u.dev.boot = .running ∧ u.dev.reasons = [3, 6, 0]) | _ => false)
    && (let s := withAct (fun _ => { fetchAct with status := .parked }) world; ((acts s).filter (isShown s)).length == 1)
    && ((acts world).filter (isShown world)).isEmpty) = true := by decide

/-- BootResetAndSurroundings: an uncorrectable error that scrubbing finds in a frame of a run, and in a bank of one of its activations. -/
theorem test_scrub : (
    let s := withAct (fun a => { a with place := some { core := 0, slot := 0, banks := [3] } }) world
    ([65536 + 5, 2 ^ 40 + 7, 2 ^ 41 + 3 * 131072, 5 * 65536].map fun x => (s.dev.runs.filter fun r => ownsByte s r x).length,
     match exec (.scrubUncorrectable 65541) s with | .next u => (u.dev.runs.length, u.dev.torn.length, u.dev.reported) | _ => (9, 9, []))) =
    ([1, 1, 1, 0], 0, 1, [65541]) := by decide

/-- PointerWindows and TileWrites: a handle of no tensor, reserved bits, a tile at NTILES; HEAD of a tile. -/
theorem test_pointer_bits_and_head : (
    let s := withDev (fun d => { d with runs := [{ worldRun with image := { worldImage with tensors := [{ tensor 3 .live with ntiles := 0 }] } }] }) world
    let t := { Tile.init with elems := [(0, { Elem.zero with v := 0x10 }), (1, { Elem.zero with v := BitVec.ofInt 96 (-2) })] }
    (errAt world (ptr 9 0) 8 8 .load false 7 && errAt world (ptr 2 0 + 2 ^ 56) 8 8 .load false 7 && errAt s (ptr 3 0) 8 8 .load false 9,
     astatValue t / 2 ^ 24, astatValue Tile.init / 2 ^ 24, headroom { Elem.zero with v := BitVec.ofInt 96 (-1) })) = (true, 90, 95, 95) := by decide

/-- AtomicsWithoutResult and ContextsAndRequests: bytes with an uncorrectable error in an atomic's word and in a context to save. -/
theorem wit_Spoilt : (
    let s := { withS [(6, 8), (7, 1)] world with dev0 := { world.dev0 with bad := [2 ^ 41 + 9] }, dev := { world.dev with bad := [2 ^ 41 + 9] } }
    (match exec (.atomAdd (.clk 0) 6 7 .w32) s with | .next u => u.act.frozen.any (fun f => decide (recCode f.record = 0x19)) | _ => false)
    && okAt s 8 4 4 .atom true .scratch && !badIn s.dev0 (2 ^ 41 + 12) 4
    && (contextError (serving { fetchAct with status := .parked, badRegs := [(.s 5, 0)] }) { fetchAct with status := .parked, badRegs := [(.s 5, 0)] }).isSome) = true := by decide

/-- A push of the activation in focus on its way to the agent: queue 3 of device `dev`. -/
def pushTo (dev : Nat) : LaunchPush :=
  { who := fetchAct.key, seq := 4, core := 0, device := dev, handle := 3, packet := packet 4 0 [], status := 131072 }

/-- A push to queue 3 of device `dev`, on its way in a device with that queue. -/
def atAgent (dev : Nat) : State := withDev (fun d => { d with pushes := [pushTo dev] }) (withQueue (queue [] 64 none) world)

/-- What the end of the core cycle leaves of it: the rings, the live accesses on their way, the remote pushes, the pushes. -/
def afterTick (s : State) : List Nat × List Bool × Nat × Nat :=
  match perform .tick s with
  | .next u => (u.dev.queues.map (·.ring.length), u.dev.liveq.map (fun q => decide (q.op = .release (bytesOfNat 8 1) .device)), u.dev.remote.length, u.dev.pushes.length)
  | _ => ([], [], 9, 9)

/-- Launching: the agent takes a push to this device as the core cycle ends; one to a device out of reach is answered. -/
theorem test_agent : ([atAgent 0, atAgent 1].map afterTick) = [([1], [true], 0, 0), ([0], [false], 0, 0)] := by decide

/-- Launching: a push to a device in reach goes to its agent; a tear-down of the run before the agent takes a push drops it (R221). -/
theorem test_agent_later : ([withDev (fun d => { d with domain := [0, 1], routes := [{ device := 1, ports := [11] }] }) (atAgent 1), tearDown (atAgent 0) 0].map afterTick) =
    [([0], [], 1, 0), ([0], [], 0, 0)] := by decide

/-- Launching: a packet in live memory waits for a FENCE of its own bundle (R270). -/
theorem test_fenced_now : (
    let l : Located := { mode := .live, addr := 131072, lc := 0 }
    let f := { world with dev0 := { world.dev0 with liveq := [liveR 0 (.store [1])] }, dev := { world.dev with liveq := [liveR 0 (.store [1]), liveR 0 (.fence .device)] } }
    ((loadNow f l 8).isSome, (loadAt f f.dev0 f.act0 l 8).isSome)) = (false, true) := by decide

/-- CopyCommands and CollectiveCommand: a TARGET that lower phases may still write, one the activation has written itself, a key taken. -/
theorem wit_Targets : (
    let arm := { ahead with act := { ahead.act with held := [{ seq := 0, op := .live 131080 (.store (bytesOfNat 8 8)), core := 0 }] } }
    let own := { arm with act0 := arm.act }
    let c := parseColl (collBytes 1)
    targetKnown world 131072 && !targetKnown ahead 131072 && targetKnown own 131072 && !targetKnown own 131136
    && c.any (fun b => !keyTaken world.dev world.act0 b && keyTaken world.dev { world.act0 with held := [{ seq := 0, op := .coll b 131072 none, core := 0 }] } b)
    && !engineHeld world world.act 1 && engineHeld (flyingLive [liveR 0 (.acquire .device)] world) world.act 1
    && !engineHeld (flyingLive [liveR 2 (.acquire .device)] world) world.act 1) = true := by decide

/-- Resolving and PlacementAndPower: in the cycle of a resolution the distributors go by the registers from before it (R185). -/
theorem test_likelihood_of_cycle : (
    let u := resolveCell world 0 0 0 true
    let y : Act := { fetchAct with factors := [.path 2] }
    let like := fun (r : Run) => (likelihood r y, (r.predictors[1]).1.toNat)
    ((u.dev.runs.map like), (u.dev.runs.map fun r => like (runAsOf 0 r)), (u.dev.runs.map fun r => like (runAsOf 1 r)), like worldRun)) =
    ([(0xFFFF, 143)], [(0x8080, 128)], [(0xFFFF, 143)], (0x8080, 128)) := by decide

/-- PlainLoads: a STAGED byte that a sibling writes takes a free value here and in memory; the others stay (R241). -/
theorem test_raced_read : (
    let st : Stamp := { inst := 0, task := 0, index := 1 }
    let d := writeStaged world.dev 0 st 65536 [7]
    let r := readStaged d.mem d 0 stampZero 65536 2
    (r.2.free - d.free, memRead d.mem 65536, r.1[1]?)) = (2, 7, some 0) := by decide

/-- Images: of two tasks with one number a run has the first (R171). -/
theorem test_first_declared : (
    let img := { worldImage with tasks := worldImage.tasks ++ [{ num := 2, entry := 0, clock := 0, width := 9, feeds := 0, tiles := [], array := false, handler := false }] }
    (runTasks (newRun 0 3 img (packet 1 0 []))).map fun t => (t.1.num, t.2)) = (runTasks worldRun).map fun t => (t.1.num, t.2) := by decide

/-- The flow of an image: the body of a LOOPI on an absent clock is ordinary code, and ends a pass where its level is active (R109, R386). -/
theorem test_flow : (
    let code := bytesOfWord (encodeWord true (.loopi (.clk 1) 2 1)) ++ bytesOfWord (encodeWord true (.nop (.clk 0))) ++ bytesOfWord (encodeWord true (.nop (.clk 0)))
    let b : Body := { first := 4, last := 4, after := 8 }
    let at_ := fun (pc : Nat) (l : List Body) => edgesOf code { pc := pc, rets := [], levels := l }
    (at_ 0 [], at_ 4 [b], at_ 4 [])) =
    ([(false, { pc := 4, rets := [], levels := [{ first := 4, last := 4, after := 8 }] }), (false, { pc := 4, rets := [], levels := [] })],
     [(true, { pc := 4, rets := [], levels := [{ first := 4, last := 4, after := 8 }] }), (true, { pc := 8, rets := [], levels := [] })],
     [(false, { pc := 8, rets := [], levels := [] })]) := by decide

/-- TADDR of a MEMX met at the home: a byte of a tensor, one of the loft window (R374). -/
theorem test_home_pointers :
    (bytePtr (some worldRun) (131072 + 12), bytePtr (some { worldRun with window := [(2, [5, 7])] }) (frameAddr true 7 20), bytePtr none 8) =
    (2 ^ 63 + 3 * 2 ^ 44 + 12, 2 ^ 62 + 2 * 2 ^ 26 + 65536 + 20, 0) := by decide

end Sys2Proof.Machine.Tests
end

section
/-! SUPPORT. Scalar multiplication and division, the immediates, and the claim on them (R56, R70, R99-R101). -/
namespace Sys2Proof.Machine

/-! ### Words of integers -/

/-- The low 64 bits of an integer are its two's complement word. -/
theorem wordOfInt_eq_ofInt (x : Int) : wordOfInt x = BitVec.ofInt 64 x := by
  have hlt : (x % ((2 ^ 64 : Nat) : Int)).toNat < 2 ^ 64 := by omega
  apply BitVec.eq_of_toNat_eq
  rw [wordOfInt, wrapNat, BitVec.toNat_ofNat, BitVec.toNat_ofInt, Nat.mod_eq_of_lt hlt]

/-- `sext` of a bit vector's number is its two's complement value (R7). -/
theorem sextInt_toNat {n : Nat} (x : BitVec n) : sextInt n x.toNat = x.toInt := by
  cases n with
  | zero => simp [sextInt, BitVec.of_length_zero]
  | succ n =>
    have hx := x.isLt
    have hpow : 2 ^ (n + 1) = 2 * 2 ^ n := by rw [Nat.pow_succ, Nat.mul_comm]
    simp only [sextInt, BitVec.toInt, Nat.mod_eq_of_lt hx, Nat.add_sub_cancel, Nat.succ_ne_zero, if_false]
    rw [hpow]
    split <;> split <;> omega

/-- Two concatenated bit vectors as a number. -/
theorem toNat_append_eq_add {m n : Nat} (x : BitVec m) (y : BitVec n) : (x ++ y).toNat = x.toNat * 2 ^ n + y.toNat := by
  rw [BitVec.toNat_append, Nat.shiftLeft_eq, Nat.mul_comm, Nat.two_pow_add_eq_or_of_lt y.isLt]

/-! ### Immediates (R56) -/

/-- IMM11 alone is sign-extended. -/
theorem immOf_nil {s : State} (imm : BitVec 11) (h : s.iss.ext = []) : immOf s imm = imm.toInt := by
  simp [immOf, h, sextInt_toNat]

/-- Under one X slot the immediate is the 32-bit number of the payload and IMM11. -/
theorem immOf_one {s : State} (imm : BitVec 11) {p : BitVec 21} (h : s.iss.ext = [p]) :
    immOf s imm = (p ++ imm).toInt := by
  rw [← sextInt_toNat, toNat_append_eq_add]
  simp [immOf, h]

/-- Under two X slots the immediate is the 53-bit number of both payloads and IMM11. -/
theorem immOf_two {s : State} (imm : BitVec 11) {p q : BitVec 21} {l : List (BitVec 21)} (h : s.iss.ext = p :: q :: l) :
    immOf s imm = (p ++ q ++ imm).toInt := by
  rw [← sextInt_toNat, toNat_append_eq_add, toNat_append_eq_add, Nat.add_mul, Nat.mul_assoc, ← Nat.pow_add]
  simp [immOf, h]

theorem immWord_eq_ofInt (s : State) (imm : BitVec 11) : immWord s imm = BitVec.ofInt 64 (immOf s imm) :=
  wordOfInt_eq_ofInt _

theorem boolWord_decide (p : Prop) [Decidable p] : boolWord (decide p) = if p then 1 else 0 := by
  simp [boolWord]

/-! ### Division (R70) -/

/-- The signed quotient: rounded towards zero, all ones over zero, and the most negative value over -1. -/
theorem divWord_eq (x y : Word) : divWord x y = if y = 0 then 0xFFFFFFFFFFFFFFFF else
    if x.toInt = -2 ^ 63 ∧ y.toInt = -1 then 0x8000000000000000 else BitVec.ofInt 64 (x.toInt.tdiv y.toInt) := by
  unfold divWord
  split
  · rfl
  · split
    case isTrue hmin =>
      rw [hmin.1, hmin.2]
      decide
    case isFalse => exact wordOfInt_eq_ofInt _

/-- The signed remainder: the dividend over zero, and 0 for the most negative value over -1. -/
theorem remWord_eq (x y : Word) : remWord x y = if y = 0 then x else
    if x.toInt = -2 ^ 63 ∧ y.toInt = -1 then 0 else BitVec.ofInt 64 (x.toInt - y.toInt * x.toInt.tdiv y.toInt) := by
  unfold remWord
  split
  · rfl
  · split
    case isTrue hmin =>
      rw [hmin.1, hmin.2]
      decide
    case isFalse => rw [wordOfInt_eq_ofInt, Int.tmod_def]

/-- The unsigned remainder of words is what the quotient leaves. -/
theorem umod_eq_sub_mul_div (x y : Word) : x % y = BitVec.ofNat 64 (x.toNat - y.toNat * (x.toNat / y.toNat)) := by
  rw [BitVec.umod_def, Nat.mod_eq_sub_mul_div]

/-! ### Scalar results -/

/-- A slot whose meaning is a scalar operation on the registers before the bundle has its scalar result (R24, R95). -/
theorem scalarResult_of_scalarOp {i : Instr} {d : SReg} {lat : Nat} {f : Act → Word} {s : State} {x : Word}
    (he : exec i s = scalarOp i d lat f s) (hx : f s.act0 = x) : ScalarResult s i d x lat :=
  completes_of_issue (fun t s => resultS s d (f s.act0) lat t) he fun t => by rw [hx]

/-- R99 and R70: each SMUL sub-code. -/
theorem smul_results (s : State) (k : KSel) (d a b : SReg) : let x := readS s.act0 a; let y := readS s.act0 b
    ScalarResult s (.mul k d a b) d (BitVec.ofInt 64 (x.toInt * y.toInt)) 3 ∧
    ScalarResult s (.mulh k d a b) d (BitVec.ofInt 64 (x.toInt * y.toInt / 2 ^ 64)) 4 ∧
    ScalarResult s (.mulhn k d a b) d (BitVec.ofNat 64 (x.toNat * y.toNat / 2 ^ 64)) 4 ∧
    ScalarResult s (.div k d a b) d (if y = 0 then 0xFFFFFFFFFFFFFFFF else
      if x.toInt = -2 ^ 63 ∧ y.toInt = -1 then 0x8000000000000000 else BitVec.ofInt 64 (x.toInt.tdiv y.toInt)) 20 ∧
    ScalarResult s (.divn k d a b) d (if y = 0 then 0xFFFFFFFFFFFFFFFF else BitVec.ofNat 64 (x.toNat / y.toNat)) 20 ∧
    ScalarResult s (.rem k d a b) d (if y = 0 then x else
      if x.toInt = -2 ^ 63 ∧ y.toInt = -1 then 0 else BitVec.ofInt 64 (x.toInt - y.toInt * x.toInt.tdiv y.toInt)) 20 ∧
    ScalarResult s (.remn k d a b) d (if y = 0 then x else BitVec.ofNat 64 (x.toNat - y.toNat * (x.toNat / y.toNat))) 20 := by
  intro x y
  refine ⟨?mul, ?mulh, ?mulhn, ?div, ?divn, ?rem, ?remn⟩
  case mul => exact scalarResult_of_scalarOp (exec_mul k d a b s) (by rw [BitVec.ofInt_mul, BitVec.ofInt_toInt, BitVec.ofInt_toInt])
  case mulh => exact scalarResult_of_scalarOp (exec_mulh k d a b s) (wordOfInt_eq_ofInt _)
  case mulhn => exact scalarResult_of_scalarOp (exec_mulhn k d a b s) rfl
  case div => exact scalarResult_of_scalarOp (exec_div k d a b s) (divWord_eq x y)
  case divn => exact scalarResult_of_scalarOp (exec_divn k d a b s) (by rw [← BitVec.udiv_def]; rfl)
  case rem => exact scalarResult_of_scalarOp (exec_rem k d a b s) (remWord_eq x y)
  case remn => exact scalarResult_of_scalarOp (exec_remn k d a b s) (by rw [← umod_eq_sub_mul_div])

/-- R100: each I form, its immediate as the integer of the slot. -/
theorem immediate_results (s : State) (k : KSel) (d a : SReg) (imm : BitVec 11) (n : Fin 64) :
    let x := readS s.act0 a
    let v := immOf s imm
    ScalarResult s (.addi k d a imm) d (x + BitVec.ofInt 64 v) 1 ∧
    ScalarResult s (.andi k d a imm) d (x &&& BitVec.ofInt 64 v) 1 ∧
    ScalarResult s (.ori k d a imm) d (x ||| BitVec.ofInt 64 v) 1 ∧
    ScalarResult s (.xori k d a imm) d (x ^^^ BitVec.ofInt 64 v) 1 ∧
    ScalarResult s (.shli k d a n) d (x <<< n.val) 1 ∧ ScalarResult s (.shri k d a n) d (x >>> n.val) 1 ∧
    ScalarResult s (.sari k d a n) d (x.sshiftRight n.val) 1 ∧
    ScalarResult s (.slti k d a imm) d (if x.toInt < v then 1 else 0) 1 ∧
    ScalarResult s (.sltni k d a imm) d (if x.toNat < (BitVec.ofInt 64 v).toNat then 1 else 0) 1 := by
  intro x v
  have hv : BitVec.ofInt 64 v = immWord s imm := (immWord_eq_ofInt s imm).symm
  rw [hv]
  refine ⟨?addi, ?andi, ?ori, ?xori, ?shli, ?shri, ?sari, ?slti, ?sltni⟩
  case addi => exact scalarResult_of_scalarOp (exec_addi k d a imm s) rfl
  case andi => exact scalarResult_of_scalarOp (exec_andi k d a imm s) rfl
  case ori => exact scalarResult_of_scalarOp (exec_ori k d a imm s) rfl
  case xori => exact scalarResult_of_scalarOp (exec_xori k d a imm s) rfl
  case shli => exact scalarResult_of_scalarOp (exec_shli k d a n s) rfl
  case shri => exact scalarResult_of_scalarOp (exec_shri k d a n s) rfl
  case sari => exact scalarResult_of_scalarOp (exec_sari k d a n s) rfl
  case slti => exact scalarResult_of_scalarOp (exec_slti k d a imm s) (boolWord_decide _)
  case sltni => exact scalarResult_of_scalarOp (exec_sltni k d a imm s) (boolWord_decide _)

/-- R14, R101: LI's result carries tag 30, whatever the tag of the slot. -/
theorem li_result (s : State) (k : KSel) (d : SReg) (imm : BitVec 11) :
    Completes s (.li k d imm) (fun _ => resultS s d (BitVec.ofInt 64 (immOf s imm)) 1 30) :=
  completes_of_issue (fun _ s => resultS s d (immWord s imm) 1 tagUniversal) (exec_li k d imm s)
    fun _ => by rw [immWord_eq_ofInt, tagUniversal]

/-- Settles O2: the SMUL results, and the I forms and LI on the immediate that the number of X slots selects. -/
theorem multiplyDivideAndImmediates : Obligations.MultiplyDivideAndImmediates := by
  unfold Obligations.MultiplyDivideAndImmediates
  refine ⟨smul_results, ?_⟩
  intro s k d a imm n p x v
  have hv : v = immOf s imm := by
    match h : s.iss.ext with
    | [] => simp only [v, h, immOf_nil imm h]
    | [p] => simp only [v, h, immOf_one imm h]
    | p :: q :: _ => simp only [v, h, immOf_two imm h]
  rw [hv]
  obtain ⟨haddi, handi, hori, hxori, hshli, hshri, hsari, hslti, hsltni⟩ := immediate_results s k d a imm n
  exact ⟨haddi, handi, hori, hxori, hshli, hshri, hsari, hslti, hsltni, li_result s k d imm, exec_literalExtension p s⟩

end Sys2Proof.Machine
end

section
/-! SUPPORT. Rounding to a multiple of a place (R75): the multiple that `roundMul` takes is the one the mode chooses, and where a
rounding reaches a given multiple. -/
namespace Sys2Proof.Machine

/-! ### Signs and magnitudes -/

/-- The number of a sign and a magnitude. -/
def signed (neg : Bool) (r : ℚ) : ℚ := if neg then -r else r

@[simp] theorem signed_true (r : ℚ) : signed true r = -r := rfl
@[simp] theorem signed_false (r : ℚ) : signed false r = r := rfl

theorem abs_signed (neg : Bool) {r : ℚ} (h : 0 ≤ r) : |signed neg r| = r := by
  cases neg <;> simp [h]

theorem signed_mul (neg : Bool) (r u : ℚ) : signed neg (r * u) = signed neg r * u := by
  cases neg <;> simp

theorem signed_mul_signed (neg : Bool) (r u : ℚ) : signed neg r * signed neg u = r * u := by
  cases neg <;> simp

theorem signed_sub (neg : Bool) (r u : ℚ) : signed neg r - signed neg u = signed neg (r - u) := by
  cases neg
  · rfl
  · simp only [signed_true]; ring

theorem signed_inj (neg : Bool) {r u : ℚ} : signed neg r = signed neg u ↔ r = u := by
  cases neg <;> simp

theorem signed_lt_zero (neg : Bool) {r : ℚ} (h : 0 < r) : signed neg r < 0 ↔ neg = true := by
  cases neg <;> simp [h, h.le]

theorem cast_signedInt (neg : Bool) (k : Nat) : ((signedInt neg k : Int) : ℚ) = signed neg k := by
  cases neg <;> simp [signedInt]

theorem signedInt_emod_two (neg : Bool) (k : Nat) : signedInt neg k % 2 = 0 ↔ k % 2 = 0 := by
  cases neg <;> simp only [signedInt, if_true, Bool.false_eq_true, if_false] <;> omega

theorem fval_fin (neg : Bool) (m : Nat) (e : Int) : fval (.fin neg m e) = signed neg (m * 2 ^ e) := by
  cases neg <;> simp [fval]

/-! ### Rounding to an integer -/

/-- Whether `k + φ` rounds up to `k + 1`: `roundsUp` of the fraction `φ` compared with a half. -/
def fracRoundsUp (mode : Mode) (neg : Bool) (k : Nat) (φ : ℚ) : Bool :=
  roundsUp mode neg (decide (1 / 2 < φ)) (decide (φ = 1 / 2)) (decide (φ ≠ 0)) (k % 2 == 1)

theorem fracRoundsUp_zero (mode : Mode) (neg : Bool) (k : Nat) : fracRoundsUp mode neg k 0 = false := by
  cases mode <;> norm_num [fracRoundsUp, roundsUp]

/-- The lower neighbour `k` of `k + φ` is the integer the mode chooses unless it rounds up. -/
theorem intChosen_lower {mode : Mode} {neg : Bool} {k : Nat} {φ : ℚ} (h0 : 0 ≤ φ) (h1 : φ < 1)
    (h : fracRoundsUp mode neg k φ = false) :
    IntChosen mode (signed neg (k + φ)) (signedInt neg k) := by
  have hk : (0 : ℚ) ≤ k := Nat.cast_nonneg k
  have hdist : |signed neg (k + φ) - signed neg k| = φ := by rw [signed_sub, add_sub_cancel_left, abs_signed neg h0]
  have hnear : φ ≤ 1 / 2 ∧ (φ = 1 / 2 → k % 2 = 0) → φ ≤ 1 / 2 ∧ (φ = 1 / 2 → signedInt neg k % 2 = 0) :=
    fun ⟨hle, htie⟩ => ⟨hle, fun heq => (signedInt_emod_two neg k).mpr (htie heq)⟩
  simp only [fracRoundsUp, roundsUp] at h
  cases mode <;> simp only [IntChosen, cast_signedInt, hdist]
  case rne => exact hnear (by simpa using h)
  case sat => exact hnear (by simpa using h)
  case rna =>
    have hlt : φ < 1 / 2 := by
      simp only [Bool.or_eq_false_iff, decide_eq_false_iff_not] at h
      exact lt_of_le_of_ne (not_lt.mp h.1) h.2
    exact ⟨hlt.le, fun heq => absurd heq hlt.ne⟩
  case rtz =>
    rw [abs_signed neg hk, abs_signed neg (add_nonneg hk h0), signed_mul_signed]
    exact ⟨by linarith, by linarith, mul_nonneg hk (add_nonneg hk h0)⟩
  case rup =>
    cases neg
    · have hz : φ = 0 := by simpa using h
      simp [hz]
    · simp only [signed_true]; constructor <;> linarith
  case rdn =>
    cases neg
    · simp only [signed_false]; constructor <;> linarith
    · have hz : φ = 0 := by simpa using h
      simp [hz]

/-- The upper neighbour `k + 1` of `k + φ` is the integer the mode chooses where it rounds up. -/
theorem intChosen_upper {mode : Mode} {neg : Bool} {k : Nat} {φ : ℚ} (h0 : 0 ≤ φ) (h1 : φ < 1)
    (h : fracRoundsUp mode neg k φ = true) :
    IntChosen mode (signed neg (k + φ)) (signedInt neg (k + 1)) := by
  have hk : (0 : ℚ) ≤ k := Nat.cast_nonneg k
  have hdist : |signed neg (k + φ) - signed neg (k + 1 : Nat)| = 1 - φ := by
    rw [abs_sub_comm, signed_sub, Nat.cast_succ, add_sub_add_left_eq_sub, abs_signed neg (sub_nonneg.mpr h1.le)]
  have hnear : (1 / 2 < φ ∨ φ = 1 / 2 ∧ k % 2 = 1) →
      1 - φ ≤ 1 / 2 ∧ (1 - φ = 1 / 2 → signedInt neg (k + 1) % 2 = 0) := by
    rw [signedInt_emod_two]
    rintro (hlt | ⟨heq, hodd⟩)
    · exact ⟨by linarith, fun heq => by linarith⟩
    · exact ⟨by linarith, fun _ => by omega⟩
  simp only [fracRoundsUp, roundsUp] at h
  cases mode <;> simp only [IntChosen, cast_signedInt, hdist]
  case rne => exact hnear (by simpa using h)
  case sat => exact hnear (by simpa using h)
  case rna =>
    have hle : 1 / 2 ≤ φ := by
      simp only [Bool.or_eq_true, decide_eq_true_eq] at h
      rcases h with hlt | heq
      exacts [hlt.le, heq.ge]
    refine ⟨by linarith, fun _ => ?_⟩
    rw [abs_signed neg (add_nonneg hk h0), abs_signed neg (Nat.cast_nonneg _), Nat.cast_succ]
    linarith
  case rtz => exact absurd h Bool.false_ne_true
  case rup =>
    cases neg
    · have hpos : 0 < φ := h0.lt_of_ne' (by simpa using h)
      simp only [signed_false, Nat.cast_succ]; constructor <;> linarith
    · simp at h
  case rdn =>
    cases neg
    · simp at h
    · have hpos : 0 < φ := h0.lt_of_ne' (by simpa using h)
      simp only [signed_true, Nat.cast_succ]; constructor <;> linarith

/-- The multiple of a rounding to a coarser place, and its inexactness: the shortcut of `roundMul` for a number below half of the
place is its general branch. -/
theorem roundMul_of_lt (mode : Mode) (neg : Bool) (m : Nat) {e q : Int} {s : Nat} (hs : q - e = s + 1) :
    roundMul mode neg m e false q =
      (if roundsUp mode neg (decide (2 ^ s < m % 2 ^ (s + 1))) (decide (m % 2 ^ (s + 1) = 2 ^ s))
          (decide (m % 2 ^ (s + 1) ≠ 0)) (m / 2 ^ (s + 1) % 2 == 1)
        then m / 2 ^ (s + 1) + 1 else m / 2 ^ (s + 1), decide (m % 2 ^ (s + 1) ≠ 0)) := by
  have hqe : ¬ q ≤ e := by omega
  have hnat : (q - e).toNat = s + 1 := by omega
  simp only [roundMul, if_neg hqe, hnat, Nat.add_sub_cancel, Bool.or_false, Bool.and_false, Bool.not_false, Bool.and_true]
  split
  case isTrue hsmall =>
    have hm : m < 2 ^ s := Nat.lt_log2_self.trans_le (Nat.pow_le_pow_right (by decide) (by omega))
    have hm' : m < 2 ^ (s + 1) := hm.trans (Nat.pow_lt_pow_right (by decide) (Nat.lt_succ_self s))
    rw [Nat.mod_eq_of_lt hm', Nat.div_eq_of_lt hm', decide_eq_false hm.le.not_gt, decide_eq_false hm.ne]
    simp [bne, beq_eq_decide]
  case isFalse => simp [bne, beq_eq_decide]

/-- The place rounded to splits a number into the lower neighbour and a fraction, which `roundMul` rounds. -/
theorem roundMul_eq_frac (mode : Mode) (neg : Bool) (m : Nat) (e q : Int) : ∃ (k : Nat) (φ : ℚ),
    0 ≤ φ ∧ φ < 1 ∧ (m : ℚ) * 2 ^ (e - q) = k + φ ∧
    roundMul mode neg m e false q = (if fracRoundsUp mode neg k φ then k + 1 else k, decide (φ ≠ 0)) := by
  rcases le_or_gt q e with hqe | hqe
  · refine ⟨m * 2 ^ (e - q).toNat, 0, le_rfl, zero_lt_one, ?_, ?_⟩
    · rw [add_zero, Nat.cast_mul, Nat.cast_pow, Nat.cast_ofNat, ← zpow_natCast, Int.toNat_of_nonneg (by omega)]
    · simp [roundMul, if_pos hqe, fracRoundsUp_zero]
  · obtain ⟨s, hs⟩ : ∃ s : Nat, q - e = s + 1 := ⟨(q - e).toNat - 1, by omega⟩
    have hD : (0 : ℚ) < 2 ^ (s + 1) := by positivity
    have hmod : m % 2 ^ (s + 1) < 2 ^ (s + 1) := Nat.mod_lt _ (by positivity)
    have hm := Nat.div_add_mod m (2 ^ (s + 1))
    rw [roundMul_of_lt mode neg m hs]
    generalize m / 2 ^ (s + 1) = k at hm ⊢
    generalize m % 2 ^ (s + 1) = d at hm hmod ⊢
    refine ⟨k, d / 2 ^ (s + 1), by positivity, ?_, ?_, ?_⟩
    · rw [div_lt_one hD]
      exact_mod_cast hmod
    · have hz : e - q = -((s + 1 : Nat) : Int) := by push_cast; omega
      rw [hz, zpow_neg, zpow_natCast, ← hm]
      push_cast
      field_simp
    · have hhalf : (1 / 2 : ℚ) * 2 ^ (s + 1) = (2 ^ s : Nat) := by push_cast; ring
      have hup : (1 / 2 : ℚ) < d / 2 ^ (s + 1) ↔ 2 ^ s < d := by rw [lt_div_iff₀ hD, hhalf, Nat.cast_lt]
      have htie : (d : ℚ) / 2 ^ (s + 1) = 1 / 2 ↔ d = 2 ^ s := by rw [div_eq_iff hD.ne', hhalf, Nat.cast_inj]
      have hinexact : (d : ℚ) / 2 ^ (s + 1) ≠ 0 ↔ d ≠ 0 := by
        rw [Ne, Ne, div_eq_zero_iff, or_iff_left hD.ne', Nat.cast_eq_zero]
      simp only [fracRoundsUp, hup, htie, hinexact]

/-- The multiple of `2^q` that `roundMul` takes is the one the mode chooses, and it is inexact where it is not the number itself. -/
theorem roundMul_spec (mode : Mode) (neg : Bool) (m : Nat) (e q : Int) :
    IntChosen mode (signed neg ((m : ℚ) * 2 ^ e / 2 ^ q)) (signedInt neg (roundMul mode neg m e false q).1) ∧
    ((roundMul mode neg m e false q).2 = true ↔ ((roundMul mode neg m e false q).1 : ℚ) * 2 ^ q ≠ (m : ℚ) * 2 ^ e) := by
  obtain ⟨k, φ, h0, h1, hx, hr⟩ := roundMul_eq_frac mode neg m e q
  have hx' : (m : ℚ) * 2 ^ e / 2 ^ q = k + φ := by rw [mul_div_assoc, ← zpow_sub₀ two_ne_zero, hx]
  rw [ne_eq, ← eq_div_iff (by positivity), hr, hx', decide_eq_true_iff]
  split
  case isTrue h =>
    have hφ0 : φ ≠ 0 := by
      rintro rfl
      rw [fracRoundsUp_zero] at h
      exact Bool.false_ne_true h
    refine ⟨intChosen_upper h0 h1 h, iff_of_true hφ0 ?_⟩
    rw [Nat.cast_succ]
    exact fun heq => h1.ne' (add_left_cancel heq)
  case isFalse h =>
    exact ⟨intChosen_lower h0 h1 (Bool.eq_false_of_not_eq_true h), not_congr left_eq_add.symm⟩

/-! ### Thresholds of a rounding -/

/-- The magnitude `r` rounds to the integer `N` or beyond. -/
def Reaches (mode : Mode) (neg : Bool) (N : Nat) (r : ℚ) : Prop :=
  match mode with
  | .rne => if N % 2 = 0 then (N : ℚ) - 1 / 2 ≤ r else (N : ℚ) - 1 / 2 < r
  | .sat => if N % 2 = 0 then (N : ℚ) - 1 / 2 ≤ r else (N : ℚ) - 1 / 2 < r
  | .rna => (N : ℚ) - 1 / 2 ≤ r
  | .rtz => (N : ℚ) ≤ r
  | .rup => if neg then (N : ℚ) ≤ r else (N : ℚ) - 1 < r
  | .rdn => if neg then (N : ℚ) - 1 < r else (N : ℚ) ≤ r

theorem reaches_of_le {mode : Mode} {neg : Bool} {N : Nat} {r : ℚ} (h : N ≤ r) : Reaches mode neg N r := by
  have hhalf : (N : ℚ) - 1 / 2 < r := by linarith
  have hone : (N : ℚ) - 1 < r := by linarith
  cases mode
  case rne => exact ite_prop_iff_and.mpr ⟨fun _ => hhalf.le, fun _ => hhalf⟩
  case sat => exact ite_prop_iff_and.mpr ⟨fun _ => hhalf.le, fun _ => hhalf⟩
  case rna => exact hhalf.le
  case rtz => exact h
  case rup => exact ite_prop_iff_and.mpr ⟨fun _ => h, fun _ => hone⟩
  case rdn => exact ite_prop_iff_and.mpr ⟨fun _ => hone, fun _ => h⟩

theorem not_reaches_of_le {mode : Mode} {neg : Bool} {N : Nat} {r : ℚ} (h : r ≤ (N : ℚ) - 1) : ¬ Reaches mode neg N r := by
  have hhalf : ¬ (N : ℚ) - 1 / 2 ≤ r := by linarith
  have hN : ¬ (N : ℚ) ≤ r := by linarith
  have hlt := h.not_gt
  cases mode
  case rne => exact fun hr => (ite_prop_iff_or.mp hr).elim (fun hc => hhalf hc.2) (fun hc => hhalf hc.2.le)
  case sat => exact fun hr => (ite_prop_iff_or.mp hr).elim (fun hc => hhalf hc.2) (fun hc => hhalf hc.2.le)
  case rna => exact hhalf
  case rtz => exact hN
  case rup => exact fun hr => (ite_prop_iff_or.mp hr).elim (fun hc => hN hc.2) (fun hc => hlt hc.2)
  case rdn => exact fun hr => (ite_prop_iff_or.mp hr).elim (fun hc => hlt hc.2) (fun hc => hN hc.2)

/-- A rounding to the nearest integer reaches `N` from the half below it, a tie only where it goes there. -/
theorem half_bounds_of_nearest {k N : Nat} {r : ℚ} (h : |r - k| ≤ 1 / 2) :
    (N ≤ k → (N : ℚ) - 1 / 2 ≤ r ∧ (r = (N : ℚ) - 1 / 2 → |r - k| = 1 / 2 ∧ k = N)) ∧
    (k < N → r ≤ (N : ℚ) - 1 / 2 ∧ (r = (N : ℚ) - 1 / 2 → |r - k| = 1 / 2 ∧ N = k + 1)) := by
  rw [abs_le] at h
  constructor
  · intro hle
    have hle' : (N : ℚ) ≤ k := by exact_mod_cast hle
    refine ⟨by linarith, fun heq => ?_⟩
    have hk : (k : ℚ) = N := by linarith
    rw [heq, hk]
    exact ⟨by norm_num, by exact_mod_cast hk⟩
  · intro hlt
    have hlt' : (k : ℚ) + 1 ≤ N := by exact_mod_cast hlt
    refine ⟨by linarith, fun heq => ?_⟩
    have hN : (N : ℚ) = k + 1 := by linarith
    have hd : r - k = 1 / 2 := by linarith
    rw [hd]
    exact ⟨by norm_num, by exact_mod_cast hN⟩

theorem le_iff_reaches_rne {neg : Bool} {k N : Nat} {r : ℚ} (hd : |r - k| ≤ 1 / 2) (htie : |r - k| = 1 / 2 → k % 2 = 0) :
    N ≤ k ↔ Reaches .rne neg N r := by
  obtain ⟨hge, hlt⟩ := half_bounds_of_nearest (N := N) hd
  refine ⟨fun h => ?_, fun h => ?_⟩
  · obtain ⟨hle, heq⟩ := hge h
    refine ite_prop_iff_and.mpr ⟨fun _ => hle, fun hodd => lt_of_le_of_ne hle fun he => hodd ?_⟩
    obtain ⟨hd', rfl⟩ := heq he.symm
    exact htie hd'
  · by_contra hn
    obtain ⟨hle, heq⟩ := hlt (not_le.mp hn)
    rcases ite_prop_iff_or.mp h with ⟨heven, hr⟩ | ⟨-, hr⟩
    · obtain ⟨hd', hN⟩ := heq (le_antisymm hle hr)
      have := htie hd'
      omega
    · exact absurd hr hle.not_gt

theorem le_iff_reaches_rna {neg : Bool} {k N : Nat} {r : ℚ} (hd : |r - k| ≤ 1 / 2) (htie : |r - k| = 1 / 2 → r ≤ k) :
    N ≤ k ↔ Reaches .rna neg N r := by
  obtain ⟨hge, hlt⟩ := half_bounds_of_nearest (N := N) hd
  refine ⟨fun h => (hge h).1, fun h => ?_⟩
  by_contra hn
  obtain ⟨hle, heq⟩ := hlt (not_le.mp hn)
  have hr : r = (N : ℚ) - 1 / 2 := le_antisymm hle h
  obtain ⟨hd', rfl⟩ := heq hr
  have := htie hd'
  push_cast at hr
  linarith

/-- A rounding down reaches `N` from `N` on. -/
theorem le_iff_le_of_floor {k N : Nat} {r : ℚ} (h : (k : ℚ) ≤ r) (h' : r < k + 1) : N ≤ k ↔ (N : ℚ) ≤ r := by
  refine ⟨fun hle => le_trans (by exact_mod_cast hle) h, fun hle => ?_⟩
  have : (N : ℚ) < (k + 1 : Nat) := by push_cast; linarith
  exact Nat.lt_succ_iff.mp (by exact_mod_cast this)

/-- A rounding up reaches `N` beyond `N - 1`. -/
theorem le_iff_lt_of_ceil {k N : Nat} {r : ℚ} (h : r ≤ k) (h' : (k : ℚ) < r + 1) : N ≤ k ↔ (N : ℚ) - 1 < r := by
  refine ⟨fun hle => ?_, fun hlt => ?_⟩
  · have : (N : ℚ) ≤ k := by exact_mod_cast hle
    linarith
  · have : (N : ℚ) < (k + 1 : Nat) := by push_cast; linarith
    exact Nat.lt_succ_iff.mp (by exact_mod_cast this)

/-- The integer the mode chooses is at least `N` exactly where the number reaches `N`. -/
theorem le_iff_reaches {mode : Mode} {neg : Bool} {k : Nat} {r : ℚ} (hr : 0 ≤ r)
    (h : IntChosen mode (signed neg r) (signedInt neg k)) (N : Nat) : N ≤ k ↔ Reaches mode neg N r := by
  have hk : (0 : ℚ) ≤ k := Nat.cast_nonneg k
  have hdist : |signed neg r - signed neg k| = |r - k| := by rw [signed_sub]; cases neg <;> simp [abs_sub_comm]
  simp only [IntChosen, cast_signedInt, hdist, abs_signed neg hr, abs_signed neg hk, signedInt_emod_two] at h
  cases mode
  case rne => exact le_iff_reaches_rne h.1 h.2
  case sat => exact le_iff_reaches_rne (neg := neg) h.1 h.2
  case rna => exact le_iff_reaches_rna h.1 h.2
  case rtz => exact le_iff_le_of_floor h.1 h.2.1
  case rup =>
    cases neg
    · exact le_iff_lt_of_ceil h.1 h.2
    · exact le_iff_le_of_floor (neg_le_neg_iff.mp h.1) (by have := h.2; simp only [signed_true] at this; linarith)
  case rdn =>
    cases neg
    · exact le_iff_le_of_floor h.1 h.2
    · exact le_iff_lt_of_ceil (neg_le_neg_iff.mp h.1) (by have := h.2; simp only [signed_true] at this; linarith)

/-- A number at most an integer rounds to at most it. -/
theorem le_of_intChosen {mode : Mode} {neg : Bool} {k M : Nat} {r : ℚ} (hr : 0 ≤ r)
    (h : IntChosen mode (signed neg r) (signedInt neg k)) (hM : r ≤ M) : k ≤ M := by
  by_contra hlt
  exact not_reaches_of_le (by push_cast; linarith) ((le_iff_reaches hr h (M + 1)).mp (not_le.mp hlt))

/-- A number at least an integer rounds to at least it. -/
theorem ge_of_intChosen {mode : Mode} {neg : Bool} {k M : Nat} {r : ℚ} (hr : 0 ≤ r)
    (h : IntChosen mode (signed neg r) (signedInt neg k)) (hM : M ≤ r) : M ≤ k :=
  (le_iff_reaches hr h M).mpr (reaches_of_le hM)

/-- Rounded to `p + 1` bits, a number reaches `N * 2^t` exactly where it reaches `N` in units of `2^t`, `N` and `N - 1` being
of `p + 1` bits: the place of the number itself does not matter. -/
theorem le_iff_reaches_of_bits {mode : Mode} {neg : Bool} {p N k : Nat} {q t : Int} {X : ℚ} (hN : 2 ^ p < N)
    (hN' : N ≤ 2 ^ (p + 1)) (hlo : 2 ^ p ≤ X / 2 ^ q) (hhi : X / 2 ^ q < 2 ^ (p + 1))
    (h : IntChosen mode (signed neg (X / 2 ^ q)) (signedInt neg k)) :
    (N : ℚ) * 2 ^ t ≤ k * 2 ^ q ↔ Reaches mode neg N (X / 2 ^ t) := by
  have hr : (0 : ℚ) ≤ X / 2 ^ q := le_trans (by positivity) hlo
  have hq : (0 : ℚ) < 2 ^ q := by positivity
  have ht : (0 : ℚ) < 2 ^ t := by positivity
  have hkl : 2 ^ p ≤ k := ge_of_intChosen hr h (by exact_mod_cast hlo)
  have hkh : k ≤ 2 ^ (p + 1) := le_of_intChosen hr h (by exact_mod_cast hhi.le)
  have hNlo : (2 ^ p : ℚ) ≤ (N : ℚ) - 1 := by
    have : ((2 ^ p + 1 : Nat) : ℚ) ≤ N := by exact_mod_cast hN
    push_cast at this
    linarith
  have hNhi : (N : ℚ) ≤ 2 ^ (p + 1) := by exact_mod_cast hN'
  have hkl' : (2 ^ p : ℚ) ≤ k := by exact_mod_cast hkl
  have hkh' : (k : ℚ) ≤ 2 ^ (p + 1) := by exact_mod_cast hkh
  rw [le_div_iff₀ hq] at hlo
  rw [div_lt_iff₀ hq] at hhi
  have hstep : ∀ {a b : Int}, a < b → (2 : ℚ) ^ (p + 1) * 2 ^ a ≤ 2 ^ p * 2 ^ b := by
    intro a b hab
    rw [pow_succ, mul_assoc, ← zpow_one_add₀ two_ne_zero]
    gcongr
    · norm_num
    · omega
  rcases lt_trichotomy q t with hqt | rfl | htq
  · refine iff_of_false (not_le.mpr ?_) (not_reaches_of_le ?_)
    · calc (k : ℚ) * 2 ^ q ≤ 2 ^ (p + 1) * 2 ^ q := by gcongr
        _ ≤ 2 ^ p * 2 ^ t := hstep hqt
        _ < N * 2 ^ t := by gcongr; exact_mod_cast hN
    · rw [div_le_iff₀ ht]
      calc X ≤ 2 ^ (p + 1) * 2 ^ q := hhi.le
        _ ≤ 2 ^ p * 2 ^ t := hstep hqt
        _ ≤ ((N : ℚ) - 1) * 2 ^ t := by gcongr
  · rw [← le_iff_reaches hr h, mul_le_mul_iff_of_pos_right hq, Nat.cast_le]
  · have hN2 : (N : ℚ) * 2 ^ t ≤ 2 ^ p * 2 ^ q := le_trans (by gcongr) (hstep htq)
    refine iff_of_true (hN2.trans (by gcongr)) (reaches_of_le ?_)
    rw [le_div_iff₀ ht]
    exact hN2.trans hlo

end Sys2Proof.Machine
end

section
/-! SUPPORT. The number of a format that a mode chooses (R75): no number of the format lies between the number rounded and its
neighbours on the place it is rounded to. -/
namespace Sys2Proof.Machine

/-! ### The best number of a grid, and of a format -/

/-- `v` is at least as good as `z` for the mode's choice for `x` (R75), `even` telling whether `v` wins a tie of RNE. -/
def BestAgainst (mode : Mode) (x v z : ℚ) (even : Prop) : Prop :=
  match mode with
  | .rtz => |v| ≤ |x| ∧ (|z| ≤ |x| → |z| ≤ |v|)
  | .rup => x ≤ v ∧ (x ≤ z → v ≤ z)
  | .rdn => v ≤ x ∧ (z ≤ x → z ≤ v)
  | .rna => |v - x| ≤ |z - x| ∧ (|v - x| = |z - x| → z ≠ v → |x| ≤ |v|)
  | .rne => |v - x| ≤ |z - x| ∧ (|v - x| = |z - x| → z ≠ v → even)
  | .sat => |v - x| ≤ |z - x| ∧ (|v - x| = |z - x| → z ≠ v → even)

/-- The mode's choice among a format's numbers is the best against each of them. -/
theorem chosen_iff_bestAgainst (f : FFmt) (mode : Mode) (x v : ℚ) (bits : Nat) :
    Chosen f mode x v bits ↔ ∀ y, FiniteBits f y → BestAgainst mode x v (fval (decodeF f y)) (bits % 2 = 0) := by
  cases mode <;> exact Iff.rfl

theorem BestAgainst.imp {mode : Mode} {x v z : ℚ} {even even' : Prop} (h : BestAgainst mode x v z even) (he : even → even') :
    BestAgainst mode x v z even' := by
  cases mode
  case rne => exact ⟨h.1, fun heq hne => he (h.2 heq hne)⟩
  case sat => exact ⟨h.1, fun heq hne => he (h.2 heq hne)⟩
  all_goals exact h

theorem bestAgainst_mul {mode : Mode} {x v z u : ℚ} {even : Prop} (hu : 0 < u) (h : BestAgainst mode x v z even) :
    BestAgainst mode (x * u) (v * u) (z * u) even := by
  cases mode <;>
    simpa only [BestAgainst, ← sub_mul, abs_mul, mul_le_mul_iff_of_pos_right hu, mul_le_mul_iff_of_pos_right (abs_pos.mpr hu.ne'),
      mul_left_inj' hu.ne', mul_left_inj' (abs_pos.mpr hu.ne').ne', ne_eq] using h

/-- An integer lies between `x` and `z`, of at least `z`'s magnitude. -/
def GridBetween (x z : ℚ) : Prop := ∃ j : Int, (x ≤ j ∧ j ≤ z ∨ z ≤ j ∧ j ≤ x) ∧ |z| ≤ |(j : ℚ)|

/-- An integer within a half of `x` is at least as near as any other, and a tie is at a half. -/
theorem abs_sub_le_of_half {x : ℚ} {K j : Int} (h : |x - K| ≤ 1 / 2) :
    |(K : ℚ) - x| ≤ |(j : ℚ) - x| ∧ (|(K : ℚ) - x| = |(j : ℚ) - x| → j ≠ K → |x - K| = 1 / 2) := by
  rw [abs_sub_comm (K : ℚ) x]
  by_cases hjk : j = K
  · rw [hjk, abs_sub_comm (K : ℚ) x]
    exact ⟨le_rfl, fun _ hne => absurd rfl hne⟩
  · have hone : (1 : ℚ) ≤ |(j : ℚ) - K| := by exact_mod_cast Int.one_le_abs (sub_ne_zero.mpr hjk)
    have htri := abs_sub_le (j : ℚ) x K
    exact ⟨by linarith, fun heq _ => by linarith⟩

/-- A number beyond an integer that lies between it and `x` is no nearer to `x`, and as near only if it is that integer. -/
theorem abs_sub_le_of_between {x z j : ℚ} (h : x ≤ j ∧ j ≤ z ∨ z ≤ j ∧ j ≤ x) :
    |j - x| ≤ |z - x| ∧ (|j - x| = |z - x| → z = j) := by
  rcases h with ⟨h1, h2⟩ | ⟨h1, h2⟩
  · rw [abs_of_nonneg (by linarith), abs_of_nonneg (by linarith)]
    exact ⟨by linarith, fun _ => by linarith⟩
  · rw [abs_of_nonpos (by linarith), abs_of_nonpos (by linarith)]
    exact ⟨by linarith, fun _ => by linarith⟩

/-- The nearest integer is at least as near as a number beyond an integer, and a tie is with an integer at a half. -/
theorem nearest_bestAgainst {x z : ℚ} {K j : Int} (h : |x - K| ≤ 1 / 2)
    (hb : x ≤ j ∧ (j : ℚ) ≤ z ∨ z ≤ j ∧ (j : ℚ) ≤ x) :
    |(K : ℚ) - x| ≤ |z - x| ∧ (|(K : ℚ) - x| = |z - x| → z ≠ K → |x - K| = 1 / 2) := by
  obtain ⟨hle, htie⟩ := abs_sub_le_of_half (j := j) h
  obtain ⟨hle', heq⟩ := abs_sub_le_of_between hb
  refine ⟨hle.trans hle', fun he hne => ?_⟩
  have hzj : z = j := heq (le_antisymm hle' (he ▸ hle))
  rw [hzj] at he hne
  exact htie he (by exact_mod_cast hne)

/-- The integer the mode chooses is best against every number that an integer separates from `x`. -/
theorem bestAgainst_of_intChosen {mode : Mode} {x z : ℚ} {K : Int} (h : IntChosen mode x K) (hz : GridBetween x z) :
    BestAgainst mode x K z (K % 2 = 0) := by
  obtain ⟨j, hb, hzj⟩ := hz
  cases mode
  case rne =>
    obtain ⟨hle, htie⟩ := nearest_bestAgainst h.1 hb
    exact ⟨hle, fun he hne => h.2 (htie he hne)⟩
  case sat =>
    obtain ⟨hle, htie⟩ := nearest_bestAgainst h.1 hb
    exact ⟨hle, fun he hne => h.2 (htie he hne)⟩
  case rna =>
    obtain ⟨hle, htie⟩ := nearest_bestAgainst h.1 hb
    exact ⟨hle, fun he hne => h.2 (htie he hne)⟩
  case rtz =>
    obtain ⟨hle, hlt, -⟩ := h
    refine ⟨hle, fun hzx => hzj.trans ?_⟩
    have hjx : |(j : ℚ)| ≤ |x| := by
      obtain ⟨hz1, hz2⟩ := abs_le.mp hzx
      have hx1 := neg_abs_le x
      have hx2 := le_abs_self x
      rw [abs_le]
      rcases hb with ⟨h1, h2⟩ | ⟨h1, h2⟩ <;> constructor <;> linarith
    have hjK : |j| < |K| + 1 := by exact_mod_cast hjx.trans_lt hlt
    exact_mod_cast Int.lt_add_one_iff.mp hjK
  case rup =>
    obtain ⟨hle, hlt⟩ := h
    refine ⟨hle, fun hxz => ?_⟩
    have hj : x ≤ j ∧ (j : ℚ) ≤ z := hb.elim id fun ⟨h1, h2⟩ => ⟨hxz.trans h1, h2.trans hxz⟩
    have hK : K < j + 1 := by exact_mod_cast hlt.trans_le (add_le_add_left hj.1 1)
    exact le_trans (by exact_mod_cast Int.lt_add_one_iff.mp hK) hj.2
  case rdn =>
    obtain ⟨hle, hlt⟩ := h
    refine ⟨hle, fun hzx => ?_⟩
    have hj : z ≤ j ∧ (j : ℚ) ≤ x := hb.elim (fun ⟨h1, h2⟩ => ⟨hzx.trans h1, h2.trans hzx⟩) id
    have hK : j < K + 1 := by exact_mod_cast hj.2.trans_lt hlt
    exact hj.1.trans (by exact_mod_cast Int.lt_add_one_iff.mp hK)

/-- An integer stands between `x` and a number whose magnitude an integer `N ≤ |x|` bounds. -/
theorem gridBetween_of_abs_le {x z : ℚ} {N : Nat} (hz : |z| ≤ N) (hx : (N : ℚ) ≤ |x|) : GridBetween x z := by
  obtain ⟨h1, h2⟩ := abs_le.mp hz
  rcases le_total 0 x with h0 | h0
  · rw [abs_of_nonneg h0] at hx
    exact ⟨N, .inr ⟨h2, hx⟩, hz.trans (le_abs_self _)⟩
  · rw [abs_of_nonpos h0] at hx
    refine ⟨-N, .inl ⟨?_, ?_⟩, hz.trans ?_⟩
    · push_cast; linarith
    · push_cast; exact h1
    · push_cast; rw [abs_neg]; exact le_abs_self _

theorem gridBetween_int (x : ℚ) (j : Int) : GridBetween x j :=
  ⟨j, (le_total x j).imp (fun h => ⟨h, le_rfl⟩) (fun h => ⟨le_rfl, h⟩), le_rfl⟩

/-- A number of `p + 1` bits is a multiple of the place `2^q`, or a multiple of it stands before any number of `p + 1` bits at
that place. -/
theorem gridBetween_of_bits {p m : Nat} {q t : Int} {x : ℚ} (neg : Bool) (hm : m < 2 ^ (p + 1)) (h : q ≤ t ∨ 2 ^ p ≤ |x|) :
    GridBetween x (signed neg (m * 2 ^ t) / 2 ^ q) := by
  have hdiv : signed neg (m * 2 ^ t) / 2 ^ q = signed neg (m * 2 ^ (t - q)) := by
    rw [div_eq_mul_inv, ← signed_mul, mul_assoc, zpow_sub₀ two_ne_zero, div_eq_mul_inv]
  rw [hdiv]
  rcases le_or_gt q t with hqt | hqt
  · have hint : signed neg (m * 2 ^ (t - q)) = (signedInt neg (m * 2 ^ (t - q).toNat) : Int) := by
      rw [cast_signedInt, Nat.cast_mul, Nat.cast_pow, Nat.cast_ofNat, ← zpow_natCast, Int.toNat_of_nonneg (by omega)]
    rw [hint]
    exact gridBetween_int _ _
  · refine gridBetween_of_abs_le (N := 2 ^ p) ?_ ?_
    · rw [abs_signed neg (by positivity)]
      calc (m : ℚ) * 2 ^ (t - q) ≤ 2 ^ (p + 1) * 2 ^ (-1 : Int) := by
            gcongr
            · exact_mod_cast hm.le
            · norm_num
            · omega
        _ = (2 ^ p : Nat) := by rw [pow_succ]; push_cast; ring
    · push_cast
      exact h.resolve_left (not_le.mpr hqt)

/-- A finite number of a format has at most `fbits + 1` bits, and no place below that of the subnormals. -/
theorem decodeF_fin_bounds {f : FFmt} {y : Nat} {n : Bool} {m : Nat} {t : Int} (h : decodeF f y = .fin n m t) :
    m < 2 ^ (f.fbits + 1) ∧ emin f - f.fbits ≤ t := by
  have hfr : y % 2 ^ f.fbits < 2 ^ f.fbits := Nat.mod_lt _ (by positivity)
  have hpow := Nat.two_pow_succ f.fbits
  have hfin : ∀ neg : Bool, ∀ E : Nat, (if E = 0 then FVal.fin neg (y % 2 ^ f.fbits) (emin f - f.fbits)
      else .fin neg (2 ^ f.fbits + y % 2 ^ f.fbits) ((E : Int) - f.bias - f.fbits)) = .fin n m t →
      m < 2 ^ (f.fbits + 1) ∧ emin f - f.fbits ≤ t := by
    intro neg E hE
    unfold emin at *
    split at hE <;> cases hE <;> constructor <;> omega
  simp only [decodeF] at h
  split at h <;> split at h
  case isTrue.isTrue => cases h
  case isTrue.isFalse => exact hfin _ _ h
  case isFalse.isTrue => split at h <;> cases h
  case isFalse.isFalse => exact hfin _ _ h

/-- The multiple of a place that the mode chooses is the number of the format it chooses, where the place is that of the number
or that of the subnormals. -/
theorem chosen_of_intChosen {f : FFmt} {mode : Mode} {neg : Bool} {X : ℚ} {q : Int} {k bits : Nat} (hX : 0 ≤ X)
    (hq : q ≤ emin f - f.fbits ∨ 2 ^ f.fbits ≤ X / 2 ^ q)
    (h : IntChosen mode (signed neg (X / 2 ^ q)) (signedInt neg k)) (hbits : k % 2 = 0 → bits % 2 = 0) :
    Chosen f mode (signed neg X) (signed neg (k * 2 ^ q)) bits := by
  rw [chosen_iff_bestAgainst]
  rintro y ⟨-, n, m, t, hy⟩
  obtain ⟨hm, ht⟩ := decodeF_fin_bounds hy
  have hu : (0 : ℚ) < 2 ^ q := by positivity
  have hr : 0 ≤ X / 2 ^ q := by positivity
  rw [hy, fval_fin]
  have hgrid : GridBetween (signed neg (X / 2 ^ q)) (signed n (m * 2 ^ t) / 2 ^ q) :=
    gridBetween_of_bits n hm (hq.imp (fun h => h.trans ht) (fun h => by rwa [abs_signed neg hr]))
  have hbest := bestAgainst_mul hu (bestAgainst_of_intChosen h hgrid)
  rw [cast_signedInt, ← signed_mul, ← signed_mul, div_mul_cancel₀ _ hu.ne', div_mul_cancel₀ _ hu.ne'] at hbest
  exact hbest.imp fun heven => hbits ((signedInt_emod_two neg k).mp heven)

end Sys2Proof.Machine
end

section
/-! SUPPORT. What the encodings of `encodeMag` denote (R71-R73). -/
namespace Sys2Proof.Machine

/-! ### Encoding -/

/-- The formats of R71: a fraction, an exponent field, and the biased exponent of the largest finite number, below all ones but
in e4m3. -/
theorem floatFormats_fields {f : FFmt} (hf : f ∈ floatFormats) :
    1 ≤ f.fbits ∧ 0 < expAllOnes f ∧ expAllOnes f + 1 = 2 ^ f.ebits ∧
    emax f + f.bias = (if f.e4m3 then 15 else (expAllOnes f : Int) - 1) ∧
    (f.e4m3 = true → expAllOnes f = 15 ∧ 2 ^ f.fbits = 8) := by
  revert f
  decide

theorem two_dvd_two_pow_fbits {f : FFmt} (hf : f ∈ floatFormats) : 2 ∣ 2 ^ f.fbits :=
  dvd_pow_self 2 (Nat.ne_zero_of_lt (floatFormats_fields hf).1)

theorem emin_le_emax {f : FFmt} (hf : f ∈ floatFormats) : emin f ≤ emax f := by
  revert f
  decide

/-- The sign, the exponent and the fraction of a bit pattern put together from them. -/
theorem withSign_fields (f : FFmt) (neg : Bool) {E fr : Nat} (hfr : fr < 2 ^ f.fbits) (hE : E < 2 ^ f.ebits) :
    withSign f neg (E * 2 ^ f.fbits + fr) % 2 ^ f.fbits = fr ∧
    withSign f neg (E * 2 ^ f.fbits + fr) / 2 ^ f.fbits % 2 ^ f.ebits = E ∧
    withSign f neg (E * 2 ^ f.fbits + fr) / signBit f = neg.toNat := by
  have hform : withSign f neg (E * 2 ^ f.fbits + fr) = (neg.toNat * 2 ^ f.ebits + E) * 2 ^ f.fbits + fr := by
    cases neg
    · simp [withSign]
    · simp only [withSign, signBit, if_true, Bool.toNat_true, pow_add]
      ring
  have hdiv : ((neg.toNat * 2 ^ f.ebits + E) * 2 ^ f.fbits + fr) / 2 ^ f.fbits = neg.toNat * 2 ^ f.ebits + E := by
    rw [Nat.mul_comm, Nat.mul_add_div (by positivity), Nat.div_eq_of_lt hfr, Nat.add_zero]
  rw [hform, signBit, Nat.add_comm f.ebits, pow_add, ← Nat.div_div_eq_div_mul, hdiv]
  refine ⟨?_, ?_, ?_⟩
  · rw [Nat.mul_add_mod', Nat.mod_eq_of_lt hfr]
  · rw [Nat.mul_add_mod', Nat.mod_eq_of_lt hE]
  · rw [Nat.mul_comm, Nat.mul_add_div (by positivity), Nat.div_eq_of_lt hE, Nat.add_zero]

/-- What a bit pattern of given fields denotes, where it is finite. -/
theorem decodeF_withSign {f : FFmt} (neg : Bool) {E fr : Nat} (hfr : fr < 2 ^ f.fbits) (hE : E < 2 ^ f.ebits)
    (hfin : if f.e4m3 then ¬ (E = 15 ∧ fr = 7) else E ≠ expAllOnes f) :
    decodeF f (withSign f neg (E * 2 ^ f.fbits + fr)) =
      if E = 0 then .fin neg fr (emin f - f.fbits) else .fin neg (2 ^ f.fbits + fr) ((E : Int) - f.bias - f.fbits) := by
  obtain ⟨hfrac, hexp, hsign⟩ := withSign_fields f neg hfr hE
  have hneg : (neg.toNat % 2 == 1) = neg := by cases neg <;> rfl
  simp only [decodeF, hfrac, hexp, hsign, hneg]
  split at hfin
  case isTrue h => rw [if_pos h, if_neg hfin]
  case isFalse h => rw [if_neg h, if_neg hfin]

/-- `k * 2^q` is a finite number of the format as it stands: subnormal at the lowest place, or of `fbits + 1` bits. -/
def Fits (f : FFmt) (k : Nat) (q : Int) : Prop :=
  (k < 2 ^ f.fbits ∧ q = emin f - f.fbits) ∨
  (2 ^ f.fbits ≤ k ∧ k < 2 ^ (f.fbits + 1) ∧ emin f ≤ q + f.fbits ∧ q + f.fbits ≤ emax f ∧
    ¬ (f.e4m3 = true ∧ q + f.fbits = emax f ∧ k = 2 ^ (f.fbits + 1) - 1))

/-- A carry out of the fraction moves the place up. -/
theorem encodeMag_carry (f : FFmt) (q : Int) : encodeMag f (2 ^ (f.fbits + 1)) q = encodeMag f (2 ^ f.fbits) (q + 1) := by
  have hlt : 2 ^ f.fbits < 2 ^ (f.fbits + 1) := Nat.pow_lt_pow_right (by decide) (Nat.lt_succ_self _)
  have hhalf : 2 ^ (f.fbits + 1) / 2 = 2 ^ f.fbits := by rw [pow_succ, Nat.mul_div_cancel _ (by decide)]
  simp [encodeMag, hlt.not_ge, hlt.not_gt, hhalf]

/-- The fields of an encoding: no exponent under a subnormal, the biased exponent over a fraction otherwise. -/
theorem encodeMag_of_fits {f : FFmt} (hf : f ∈ floatFormats) {k : Nat} {q : Int} (h : Fits f k q) :
    ∃ E fr, encodeMag f k q = E * 2 ^ f.fbits + fr ∧ fr < 2 ^ f.fbits ∧ E < 2 ^ f.ebits ∧
      (if f.e4m3 then ¬ (E = 15 ∧ fr = 7) else E ≠ expAllOnes f) ∧
      (E = 0 ∧ k = fr ∧ q = emin f - f.fbits ∨ E ≠ 0 ∧ k = 2 ^ f.fbits + fr ∧ q = (E : Int) - f.bias - f.fbits) := by
  obtain ⟨-, hones, hones', hemax, h43⟩ := floatFormats_fields hf
  rcases h with ⟨hk, hq⟩ | ⟨hk, hk', hlo, hhi, htop⟩
  · refine ⟨0, k, ?_, hk, by omega, ?_, .inl ⟨rfl, rfl, hq⟩⟩
    · simp only [encodeMag, if_pos hk]
      split <;> omega
    · split <;> omega
  · have hpow := Nat.two_pow_succ f.fbits
    have hpos := Nat.two_pow_pos f.fbits
    have hencode : encodeMag f k q = (q + f.fbits + f.bias).toNat * 2 ^ f.fbits + (k - 2 ^ f.fbits) := by
      simp only [encodeMag, if_neg hk'.not_ge, if_neg hk.not_gt, if_neg (by omega : k ≠ 0)]
    obtain ⟨E, hE⟩ : ∃ E : Nat, q + f.fbits + f.bias = E := ⟨_, (Int.toNat_of_nonneg (by unfold emin at hlo; omega)).symm⟩
    have hE1 : 1 ≤ E := by unfold emin at hlo; omega
    rw [hE, Int.toNat_natCast] at hencode
    refine ⟨E, k - 2 ^ f.fbits, hencode, by omega, ?_, ?_, .inr ⟨by omega, by omega, by omega⟩⟩
    · split at hemax
      case isTrue h => have := h43 h; omega
      case isFalse => omega
    · split
      case isTrue h =>
        rw [if_pos h] at hemax
        have hfrac := (h43 h).2
        rintro ⟨hE15, hfr⟩
        exact htop ⟨h, by omega, by omega⟩
      case isFalse h =>
        rw [if_neg h] at hemax
        omega

/-- What fits a format is what its encoding denotes. -/
theorem decodeF_encodeMag {f : FFmt} (hf : f ∈ floatFormats) (neg : Bool) {k : Nat} {q : Int} (h : Fits f k q) :
    decodeF f (withSign f neg (encodeMag f k q)) = .fin neg k q := by
  obtain ⟨E, fr, henc, hfr, hE, hfin, hval⟩ := encodeMag_of_fits hf h
  rw [henc, decodeF_withSign neg hfr hE hfin]
  rcases hval with ⟨h0, rfl, rfl⟩ | ⟨h0, rfl, rfl⟩
  · rw [if_pos h0]
  · rw [if_neg h0]

/-- A fitting encoding carries its sign, in the width of the format, and an even multiple has an even last fraction bit. -/
theorem withSign_encodeMag_bits {f : FFmt} (hf : f ∈ floatFormats) (neg : Bool) {k : Nat} {q : Int} (h : Fits f k q) :
    withSign f neg (encodeMag f k q) < 2 * signBit f ∧ withSign f neg (encodeMag f k q) / signBit f = neg.toNat ∧
    (k % 2 = 0 → withSign f neg (encodeMag f k q) % 2 = 0) := by
  obtain ⟨E, fr, henc, hfr, hE, -, hval⟩ := encodeMag_of_fits hf h
  obtain ⟨hfrac, -, hsign⟩ := withSign_fields f neg hfr hE
  have h2 := two_dvd_two_pow_fbits hf
  rw [henc]
  refine ⟨?_, hsign, fun hk => ?_⟩
  · have hlt : withSign f neg (E * 2 ^ f.fbits + fr) / signBit f < 2 := by rw [hsign]; exact neg.toNat_lt
    exact (Nat.div_lt_iff_lt_mul (by unfold signBit; positivity)).mp hlt
  · rw [← Nat.mod_mod_of_dvd _ h2, hfrac]
    rcases hval with ⟨-, rfl, -⟩ | ⟨-, rfl, -⟩ <;> omega

/-! ### The bits of a finite result -/

/-- The bit pattern `y` is the finite number of sign `neg` and magnitude `k * 2^q`, its last bit even where `k` is. -/
structure Encodes (f : FFmt) (neg : Bool) (k : Nat) (q : Int) (y : Nat) : Prop where
  finite : FiniteBits f y
  value : fval (decodeF f y) = signed neg (k * 2 ^ q)
  sign : y / signBit f % 2 = 1 ↔ neg = true
  even : k % 2 = 0 → y % 2 = 0

theorem encodes_of_fits {f : FFmt} (hf : f ∈ floatFormats) (neg : Bool) {k : Nat} {q : Int} (h : Fits f k q) :
    Encodes f neg k q (withSign f neg (encodeMag f k q)) := by
  obtain ⟨hlt, hsign, heven⟩ := withSign_encodeMag_bits hf neg h
  have hdec := decodeF_encodeMag hf neg h
  exact ⟨⟨hlt, neg, k, q, hdec⟩, by rw [hdec, fval_fin], by rw [hsign]; cases neg <;> decide, heven⟩

theorem log2_of_bits {p k : Nat} (hlo : 2 ^ p ≤ k) (hhi : k < 2 ^ (p + 1)) : Nat.log2 k = p :=
  (Nat.log2_eq_iff (Nat.ne_zero_of_lt (Nat.one_le_two_pow.trans hlo))).mpr ⟨hlo, hhi⟩

/-- A normal result is encoded as it stands, or with its carry. -/
theorem encodes_normal {f : FFmt} (hf : f ∈ floatFormats) (neg : Bool) {k : Nat} {q : Int} (hlo : 2 ^ f.fbits ≤ k)
    (hhi : k ≤ 2 ^ (f.fbits + 1)) (hmin : emin f ≤ q + Nat.log2 k) (hmax : q + Nat.log2 k ≤ emax f)
    (htop : ¬ (f.e4m3 = true ∧ q + Nat.log2 k = emax f ∧ k = 2 ^ (f.fbits + 1) - 1)) :
    Encodes f neg k q (withSign f neg (encodeMag f k q)) := by
  have hpow := Nat.two_pow_succ f.fbits
  have h2 := two_dvd_two_pow_fbits hf
  have hpos := Nat.two_pow_pos f.fbits
  rcases hhi.lt_or_eq with hlt | rfl
  · rw [log2_of_bits hlo hlt] at hmin hmax htop
    exact encodes_of_fits hf neg (.inr ⟨hlo, hlt, hmin, hmax, htop⟩)
  · rw [Nat.log2_two_pow] at hmin hmax
    push_cast at hmin hmax
    have hfits : Fits f (2 ^ f.fbits) (q + 1) :=
      .inr ⟨le_rfl, by omega, by omega, by omega, fun ⟨_, _, h⟩ => by omega⟩
    obtain ⟨hfin, hval, hsign, heven⟩ := encodes_of_fits hf neg hfits
    rw [encodeMag_carry]
    refine ⟨hfin, ?_, hsign, fun _ => heven (by omega)⟩
    rw [hval, zpow_add_one₀ two_ne_zero]
    congr 1
    push_cast
    ring

/-- A result below the smallest normal number, or that number, is encoded at the place of the subnormals. -/
theorem encodes_subnormal {f : FFmt} (hf : f ∈ floatFormats) (neg : Bool) {k : Nat} (hk : k ≤ 2 ^ f.fbits) :
    Encodes f neg k (emin f - f.fbits) (withSign f neg (encodeMag f k (emin f - f.fbits))) := by
  have hpow := Nat.two_pow_succ f.fbits
  have h2 := two_dvd_two_pow_fbits hf
  have hpos := Nat.two_pow_pos f.fbits
  have hle := emin_le_emax hf
  rcases hk.lt_or_eq with hlt | rfl
  · exact encodes_of_fits hf neg (.inl ⟨hlt, rfl⟩)
  · exact encodes_of_fits hf neg (.inr ⟨le_rfl, by omega, by omega, by omega, fun ⟨_, _, h⟩ => by omega⟩)

end Sys2Proof.Machine
end

section
/-! SUPPORT. Overflow and tininess (R76, R78), and the claim on the one rounding. -/
namespace Sys2Proof.Machine

/-! ### Overflow and tininess as thresholds -/

theorem two_pow_mul_zpow_sub (p : Nat) (n : Int) : (2 : ℚ) ^ p * 2 ^ (n - p) = 2 ^ n := by
  rw [← zpow_natCast, ← zpow_add₀ two_ne_zero, add_sub_cancel]

theorem two_pow_succ_mul_zpow_sub (p : Nat) (n : Int) : (2 : ℚ) ^ (p + 1) * 2 ^ (n - p) = 2 ^ (n + 1) := by
  rw [pow_succ, mul_right_comm, two_pow_mul_zpow_sub, zpow_add_one₀ two_ne_zero]

/-- The first multiple of the place of the largest finite number that overflows. -/
def overflowMultiple (f : FFmt) : Nat := if f.e4m3 then 2 ^ (f.fbits + 1) - 1 else 2 ^ (f.fbits + 1)

theorem decodeF_maxMag {f : FFmt} (hf : f ∈ floatFormats) :
    decodeF f (maxMag f) = .fin false (overflowMultiple f - 1) (emax f - f.fbits) := by
  revert f
  decide

theorem overflowMultiple_bounds {f : FFmt} (hf : f ∈ floatFormats) :
    2 ^ f.fbits < overflowMultiple f ∧ overflowMultiple f ≤ 2 ^ (f.fbits + 1) ∧
    (overflowMultiple f % 2 = 0 ↔ f.e4m3 = false) := by
  revert f
  decide

/-- A number overflows exactly where it reaches the first multiple past the largest finite number. -/
theorem overflowsFrom_iff_reaches {f : FFmt} (hf : f ∈ floatFormats) (mode : Mode) (neg : Bool) {X : ℚ} (hX : 0 < X) :
    OverflowsFrom f mode (signed neg X) ↔ Reaches mode neg (overflowMultiple f) (X / 2 ^ (emax f - f.fbits)) := by
  obtain ⟨hlo, -, heven⟩ := overflowMultiple_bounds hf
  have hone : 1 ≤ overflowMultiple f := Nat.one_le_two_pow.trans hlo.le
  have hu : (0 : ℚ) < 2 ^ (emax f - f.fbits) := by positivity
  have htop : fval (decodeF f (maxMag f)) = ((overflowMultiple f : ℚ) - 1) * 2 ^ (emax f - f.fbits) := by
    rw [decodeF_maxMag hf, fval_fin, signed_false, Nat.cast_sub hone, Nat.cast_one]
  simp only [OverflowsFrom, Reaches, htop, abs_signed neg hX.le, le_div_iff₀ hu, lt_div_iff₀ hu, heven]
  generalize (2 : ℚ) ^ (emax f - f.fbits) = u
  generalize (overflowMultiple f : ℚ) = N
  have hhalf : (N - 1) * u + u / 2 = (N - 1 / 2) * u := by ring
  have hone : (N - 1) * u + u = N * u := by ring
  rw [hhalf, hone]
  cases mode
  case rne => cases f.e4m3 <;> exact Iff.rfl
  case sat => cases f.e4m3 <;> exact Iff.rfl
  case rna => exact Iff.rfl
  case rtz => exact Iff.rfl
  case rup => cases neg <;> simp [hX, hX.not_gt]
  case rdn => cases neg <;> simp [hX, hX.not_gt]

theorem smallest_normal (f : FFmt) : ((2 ^ (f.fbits + 1) : Nat) : ℚ) * 2 ^ (emin f - 1 - f.fbits) = 2 ^ emin f := by
  rw [Nat.cast_pow, Nat.cast_ofNat, two_pow_succ_mul_zpow_sub, sub_add_cancel]

/-- A number is tiny exactly where it does not reach the smallest normal number, in units of the place below it. -/
theorem tiny_iff_not_reaches {f : FFmt} (mode : Mode) (neg : Bool) {X : ℚ} (hX : 0 < X) :
    Tiny f mode (signed neg X) ↔ ¬ Reaches mode neg (2 ^ (f.fbits + 1)) (X / 2 ^ (emin f - 1 - f.fbits)) := by
  have hu : (0 : ℚ) < 2 ^ (emin f - 1 - f.fbits) := by positivity
  have heven : 2 ^ (f.fbits + 1) % 2 = 0 := by rw [pow_succ, Nat.mul_mod_left]
  simp only [Tiny, Reaches, ← smallest_normal, abs_signed neg hX.le, le_div_iff₀ hu, lt_div_iff₀ hu, if_pos heven]
  generalize (2 : ℚ) ^ (emin f - 1 - f.fbits) = u
  generalize ((2 ^ (f.fbits + 1) : Nat) : ℚ) = N
  have hhalf : N * u - u / 2 = (N - 1 / 2) * u := by ring
  have hone : N * u - u = (N - 1) * u := by ring
  rw [hhalf, hone]
  cases mode
  case rne => exact not_le.symm
  case sat => exact not_le.symm
  case rna => exact not_le.symm
  case rtz => exact not_le.symm
  case rup => cases neg <;> simp [hX, hX.not_gt]
  case rdn => cases neg <;> simp [hX, hX.not_gt]

/-- A tiny number is of at most `fbits` bits at the place of the subnormals. -/
theorem place_of_tiny {f : FFmt} {mode : Mode} {neg : Bool} {X : ℚ} (hX : 0 < X) (h : Tiny f mode (signed neg X)) :
    X / 2 ^ (emin f - f.fbits) ≤ (2 ^ f.fbits : Nat) := by
  rw [tiny_iff_not_reaches mode neg hX] at h
  have hlt := lt_of_not_ge (mt reaches_of_le h)
  rw [div_lt_iff₀ (by positivity), smallest_normal] at hlt
  rw [div_le_iff₀ (by positivity), Nat.cast_pow, Nat.cast_ofNat, two_pow_mul_zpow_sub]
  exact hlt.le

/-- The exponent of `k * 2^q` is at least `n` exactly where the number is at least `2^n`. -/
theorem le_add_log2_iff {k : Nat} (hk : k ≠ 0) (q n : Int) : n ≤ q + Nat.log2 k ↔ (2 : ℚ) ^ n ≤ k * 2 ^ q := by
  have hlo : (2 : ℚ) ^ (Nat.log2 k : Int) ≤ k := by rw [zpow_natCast]; exact_mod_cast Nat.log2_self_le hk
  have hhi : (k : ℚ) < 2 ^ (Nat.log2 k + 1 : Int) := by exact_mod_cast Nat.lt_log2_self
  constructor
  · intro h
    calc (2 : ℚ) ^ n ≤ 2 ^ (Nat.log2 k + q : Int) := zpow_le_zpow_right₀ one_le_two (by omega)
      _ = 2 ^ (Nat.log2 k : Int) * 2 ^ q := zpow_add₀ two_ne_zero _ _
      _ ≤ k * 2 ^ q := by gcongr
  · intro h
    by_contra hn
    have : (k : ℚ) * 2 ^ q < 2 ^ n := calc
      (k : ℚ) * 2 ^ q < 2 ^ (Nat.log2 k + 1 : Int) * 2 ^ q := by gcongr
      _ = 2 ^ (Nat.log2 k + 1 + q : Int) := (zpow_add₀ two_ne_zero _ _).symm
      _ ≤ 2 ^ n := zpow_le_zpow_right₀ one_le_two (by omega)
    exact absurd h this.not_ge

/-- The test of `roundMag` for overflow: the multiple is past the largest finite number. -/
theorem overflow_test_iff {f : FFmt} (hf : f ∈ floatFormats) {k : Nat} {q : Int} (hlo : 2 ^ f.fbits ≤ k)
    (hhi : k ≤ 2 ^ (f.fbits + 1)) :
    (emax f < q + Nat.log2 k ∨ f.e4m3 = true ∧ q + Nat.log2 k = emax f ∧ k = 2 ^ (f.fbits + 1) - 1) ↔
    (overflowMultiple f : ℚ) * 2 ^ (emax f - f.fbits) ≤ k * 2 ^ q := by
  have hpos := Nat.two_pow_pos f.fbits
  have hpow := Nat.two_pow_succ f.fbits
  have hk : k ≠ 0 := by omega
  have hnext : ((2 ^ (f.fbits + 1) : Nat) : ℚ) * 2 ^ (emax f - f.fbits) = 2 ^ (emax f + 1) := by
    rw [Nat.cast_pow, Nat.cast_ofNat, two_pow_succ_mul_zpow_sub]
  have hbeyond : emax f < q + Nat.log2 k ↔ ((2 ^ (f.fbits + 1) : Nat) : ℚ) * 2 ^ (emax f - f.fbits) ≤ k * 2 ^ q := by
    rw [hnext, ← le_add_log2_iff hk, Int.add_one_le_iff]
  have hu : (0 : ℚ) < 2 ^ (emax f - f.fbits) := by positivity
  cases h43 : f.e4m3
  · simp [overflowMultiple, h43, hbeyond]
  · obtain ⟨N, hN⟩ : ∃ N, N = 2 ^ (f.fbits + 1) - 1 := ⟨_, rfl⟩
    have hpN : 2 ^ f.fbits < N := by
      have : 2 ^ 1 ≤ 2 ^ f.fbits := Nat.pow_le_pow_right (by decide) (floatFormats_fields hf).1
      omega
    have hlow : (2 : ℚ) ^ emax f < N * 2 ^ (emax f - f.fbits) := by
      rw [← two_pow_mul_zpow_sub f.fbits (emax f)]
      gcongr
      exact_mod_cast hpN
    simp only [overflowMultiple, h43, if_true, true_and, ← hN]
    rcases lt_trichotomy (q + Nat.log2 k) (emax f) with hlt | heq | hgt
    · have hval : ¬ (2 : ℚ) ^ emax f ≤ k * 2 ^ q := by rw [← le_add_log2_iff hk]; omega
      exact iff_of_false (by omega) fun h => hval (hlow.le.trans h)
    · rw [or_iff_right (by omega), and_iff_right heq]
      rcases hhi.lt_or_eq with hk' | rfl
      · have hq : q = emax f - f.fbits := by rw [log2_of_bits hlo hk'] at heq; omega
        rw [hq, mul_le_mul_iff_of_pos_right hu, Nat.cast_le]
        omega
      · rw [Nat.log2_two_pow] at heq
        have hval : ((2 ^ (f.fbits + 1) : Nat) : ℚ) * 2 ^ q = 2 ^ emax f := by
          rw [← heq, ← two_pow_mul_zpow_sub (f.fbits + 1) (q + (f.fbits + 1 : Nat)), add_sub_cancel_right, Nat.cast_pow,
            Nat.cast_ofNat]
        exact iff_of_false (by omega) (by rw [hval]; exact hlow.not_ge)
    · have hNle : (N : ℚ) ≤ (2 ^ (f.fbits + 1) : Nat) := by rw [Nat.cast_le]; omega
      exact iff_of_true (.inl hgt) (le_trans (by gcongr) (hbeyond.mp hgt))

/-- A magnitude divided by its place is of `p + 1` bits. -/
theorem div_place_bits {m : Nat} (hm : m ≠ 0) (e : Int) (p : Nat) :
    2 ^ p ≤ (m : ℚ) * 2 ^ e / 2 ^ (e + Nat.log2 m - p) ∧ (m : ℚ) * 2 ^ e / 2 ^ (e + Nat.log2 m - p) < 2 ^ (p + 1) := by
  have hpos : (0 : ℚ) < 2 ^ (e + Nat.log2 m - p) := by positivity
  have hval := le_add_log2_iff hm e
  rw [le_div_iff₀ hpos, div_lt_iff₀ hpos, two_pow_mul_zpow_sub, two_pow_succ_mul_zpow_sub, ← hval, ← not_le, ← hval]
  omega

section
variable {f : FFmt} {mode : Mode} {neg : Bool} {X : ℚ} {q : Int} {k : Nat} (hX : 0 < X)
  (hlo : 2 ^ f.fbits ≤ X / 2 ^ q) (hhi : X / 2 ^ q < 2 ^ (f.fbits + 1))
  (hk : IntChosen mode (signed neg (X / 2 ^ q)) (signedInt neg k))
include hX hlo hhi hk

/-- The multiple of a number of `fbits + 1` bits is of as many, or the carry out of them. -/
theorem multiple_bits : 2 ^ f.fbits ≤ k ∧ k ≤ 2 ^ (f.fbits + 1) :=
  have hr : 0 ≤ X / 2 ^ q := by positivity
  ⟨ge_of_intChosen hr hk (by exact_mod_cast hlo), le_of_intChosen hr hk (by exact_mod_cast hhi.le)⟩

/-- The test of `roundMag` for overflow is R76's. -/
theorem overflow_test_iff_overflowsFrom (hf : f ∈ floatFormats) :
    (emax f < q + Nat.log2 k ∨ f.e4m3 = true ∧ q + Nat.log2 k = emax f ∧ k = 2 ^ (f.fbits + 1) - 1) ↔
    OverflowsFrom f mode (signed neg X) := by
  obtain ⟨hN, hN', -⟩ := overflowMultiple_bounds hf
  obtain ⟨hk1, hk2⟩ := multiple_bits hX hlo hhi hk
  rw [overflow_test_iff hf hk1 hk2, le_iff_reaches_of_bits hN hN' hlo hhi hk, overflowsFrom_iff_reaches hf mode neg hX]

/-- The test of `roundMag` for tininess is R78's. -/
theorem exponent_lt_emin_iff_tiny : q + Nat.log2 k < emin f ↔ Tiny f mode (signed neg X) := by
  have hlt : 2 ^ f.fbits < 2 ^ (f.fbits + 1) := Nat.pow_lt_pow_right (by decide) (Nat.lt_succ_self _)
  have hk0 : k ≠ 0 := Nat.ne_zero_of_lt (Nat.one_le_two_pow.trans (multiple_bits hX hlo hhi hk).1)
  rw [tiny_iff_not_reaches mode neg hX, ← le_iff_reaches_of_bits hlt le_rfl hlo hhi hk, smallest_normal, ← not_le,
    le_add_log2_iff hk0]

end

/-! ### The rounding -/

theorem rounded_of_overflows {f : FFmt} {mode : Mode} {neg : Bool} {X : ℚ} (hX : 0 < X)
    (h : OverflowsFrom f mode (signed neg X)) :
    Rounded f mode (signed neg X) (overflowBits f mode neg, { of := true, nx := true }) := by
  have hneg : decide (signed neg X < 0) = neg := by simp [signed_lt_zero neg hX]
  refine ⟨rfl, rfl, iff_of_true rfl h, fun _ => ⟨rfl, rfl, ?_⟩, nofun⟩
  rw [hneg]
  cases mode <;> rfl

theorem rounded_of_encodes {f : FFmt} {mode : Mode} {neg nx uf : Bool} {X : ℚ} {k y : Nat} {q : Int} (hX : 0 < X)
    (hno : ¬ OverflowsFrom f mode (signed neg X)) (hy : Encodes f neg k q y)
    (hchosen : Chosen f mode (signed neg X) (signed neg (k * 2 ^ q)) y)
    (hnx : nx = true ↔ (k : ℚ) * 2 ^ q ≠ X) (huf : uf = true ↔ nx = true ∧ Tiny f mode (signed neg X)) :
    Rounded f mode (signed neg X) (y, { uf := uf, nx := nx }) := by
  obtain ⟨hfin, hval, hsign, -⟩ := hy
  refine ⟨rfl, rfl, iff_of_false nofun hno, nofun, fun _ => ?_⟩
  rw [hval, signed_lt_zero neg hX, ne_eq, signed_inj]
  exact ⟨hfin, hsign, hchosen, hnx, huf⟩

/-- The one rounding of a non-zero number (R75-R78): rounded to `fbits + 1` bits, it overflows, or is below the smallest normal
number and rounded at the place of the subnormals, or is the result. -/
theorem roundMag_rounded {f : FFmt} (hf : f ∈ floatFormats) (mode : Mode) (neg : Bool) {m : Nat} (hm : m ≠ 0) (e : Int) :
    Rounded f mode (signed neg ((m : ℚ) * 2 ^ e)) (roundMag f mode neg m e false) := by
  have hX : (0 : ℚ) < m * 2 ^ e := mul_pos (by exact_mod_cast Nat.pos_of_ne_zero hm) (by positivity)
  obtain ⟨hlo, hhi⟩ := div_place_bits hm e f.fbits
  obtain ⟨hu, hnxu⟩ := roundMul_spec mode neg m e (e + Nat.log2 m - f.fbits)
  obtain ⟨hs, hnxs⟩ := roundMul_spec mode neg m e (emin f - f.fbits)
  obtain ⟨hk1, hk2⟩ := multiple_bits hX hlo hhi hu
  have hover := overflow_test_iff_overflowsFrom hX hlo hhi hu hf
  have htiny := exponent_lt_emin_iff_tiny hX hlo hhi hu
  simp only [roundMag]
  generalize (m : ℚ) * 2 ^ e = X at *
  generalize e + Nat.log2 m - f.fbits = qu at *
  generalize roundMul mode neg m e false qu = ru at *
  generalize roundMul mode neg m e false (emin f - f.fbits) = rs at *
  split
  case isTrue h =>
    simp only [Bool.or_eq_true, decide_eq_true_iff, Bool.and_eq_true, beq_iff_eq, and_assoc] at h
    exact rounded_of_overflows hX (hover.mp h)
  case isFalse hno =>
    simp only [Bool.or_eq_true, decide_eq_true_iff, Bool.and_eq_true, beq_iff_eq, and_assoc] at hno
    split
    case isTrue h =>
      have ht := htiny.mp h
      have hk := le_of_intChosen (by positivity) hs (place_of_tiny hX ht)
      have hy := encodes_subnormal hf neg hk
      exact rounded_of_encodes hX (mt hover.mpr hno) hy (chosen_of_intChosen hX.le (.inl le_rfl) hs hy.even) hnxs
        (and_iff_left ht).symm
    case isFalse h =>
      obtain ⟨hmax, htop⟩ := not_or.mp hno
      have hy := encodes_normal hf neg hk1 hk2 (not_lt.mp h) (not_lt.mp hmax) htop
      exact rounded_of_encodes hX (mt hover.mpr hno) hy (chosen_of_intChosen hX.le (.inr hlo) hu hy.even) hnxu
        (iff_of_false Bool.false_ne_true fun hc => h (htiny.mpr hc.2))

/-- Settles O59: the sign and the magnitude of the number are those `roundFin` is given, and its magnitude is rounded once. -/
theorem roundingChoosesTheNearest : Obligations.RoundingChoosesTheNearest := by
  unfold Obligations.RoundingChoosesTheNearest
  intro f mode neg m e hf hm
  have hround : roundFin f mode neg m e = roundMag f mode neg m e false := if_neg fun h => hm h.1
  rw [fval_fin, hround]
  exact roundMag_rounded hf mode neg hm e

end Sys2Proof.Machine
end

section
/-! SUPPORT. The SALU's counting, rotating and choosing functions, PADD's checked sum, and the claim on them (R97, R98). -/
namespace Sys2Proof.Machine

/-! ### Counting bits (R97) -/

/-- The leading zeros of a word: all 64 of zero, and those above the highest set bit of any other. -/
theorem clzNat_toNat (x : Word) : clzNat 64 x.toNat = if x = 0 then 64 else 63 - Nat.log2 x.toNat := by
  rw [clzNat, Nat.mod_eq_of_lt x.isLt]
  exact if_congr (BitVec.toNat_eq (y := 0)).symm rfl rfl

theorem ctzNat_le (n x : Nat) : ctzNat n x ≤ n := by
  induction n generalizing x with
  | zero => exact le_rfl
  | succ n ih =>
    rw [ctzNat]
    split
    · exact Nat.zero_le _
    · exact Nat.succ_le_succ (ih _)

/-- Every bit below the trailing-zero count is clear. -/
theorem testBit_of_lt_ctzNat {n x i : Nat} (h : i < ctzNat n x) : x.testBit i = false := by
  induction n generalizing x i with
  | zero => exact absurd h (Nat.not_lt_zero i)
  | succ n ih =>
    rw [ctzNat] at h
    split at h
    case isTrue => exact absurd h (Nat.not_lt_zero i)
    case isFalse heven =>
      cases i with
      | zero => simpa [Nat.testBit_zero] using heven
      | succ i => rw [Nat.testBit_succ, ih (Nat.lt_of_succ_lt_succ h)]

/-- Where the trailing-zero count ends before `n`, it ends at a set bit. -/
theorem testBit_ctzNat {n x : Nat} (h : ctzNat n x < n) : x.testBit (ctzNat n x) = true := by
  induction n generalizing x with
  | zero => exact absurd h (Nat.not_lt_zero _)
  | succ n ih =>
    rw [ctzNat] at h ⊢
    split at h
    case isTrue hodd => simp [hodd, Nat.testBit_zero]
    case isFalse heven =>
      rw [if_neg heven, Nat.testBit_succ]
      exact ih (Nat.lt_of_succ_lt_succ h)

theorem popcNat_eq_countP (n x : Nat) : popcNat n x = (List.range n).countP x.testBit := by
  induction n generalizing x with
  | zero => rfl
  | succ n ih =>
    have htail : x.testBit ∘ Nat.succ = (x / 2).testBit := funext (Nat.testBit_succ x)
    rw [popcNat, ih, List.range_succ_eq_map, List.countP_cons, List.countP_map, htail, Nat.testBit_zero, add_comm]
    rcases Nat.mod_two_eq_zero_or_one x with h | h <;> simp [h]

/-! ### Rotation and choice (R97) -/

/-- The rotation of a number is that of the bit vector: the part that leaves on the right comes in above the rest. -/
theorem rotrNat_toNat {w : Nat} (x : BitVec w) (n : Nat) : BitVec.ofNat w (rotrNat w x.toNat n) = x.rotateRight n := by
  rcases Nat.eq_zero_or_pos w with rfl | hw
  · exact Subsingleton.elim _ _
  have hk : n % w ≤ w := (Nat.mod_lt n hw).le
  have hpow : 2 ^ w = 2 ^ (n % w) * 2 ^ (w - n % w) := by rw [← Nat.pow_add, Nat.add_sub_cancel' hk]
  have hlow : x.toNat / 2 ^ (n % w) < 2 ^ (w - n % w) := Nat.div_lt_of_lt_mul (hpow ▸ x.isLt)
  have hhigh : x.toNat <<< (w - n % w) % 2 ^ w = 2 ^ (w - n % w) * (x.toNat % 2 ^ (n % w)) := by
    rw [Nat.shiftLeft_eq, hpow, Nat.mul_mod_mul_right, Nat.mul_comm]
  have hsum : (x.rotateRight n).toNat = x.toNat / 2 ^ (n % w) + x.toNat % 2 ^ (n % w) * 2 ^ (w - n % w) := by
    rw [BitVec.toNat_rotateRight, hhigh, Nat.shiftRight_eq_div_pow, Nat.or_comm, ← Nat.two_pow_add_eq_or_of_lt hlow,
      Nat.add_comm, Nat.mul_comm]
  rw [rotrNat, ← hsum, Nat.mod_eq_of_lt (x.rotateRight n).isLt, BitVec.ofNat_toNat, BitVec.setWidth_eq]

/-- A choice by `≤` and one by `<` differ only between equal words, where both answers are one. -/
theorem ite_le_eq_ite_lt {α β : Type} [PartialOrder β] {f : α → β} (hf : f.Injective) {x y u v : α} (h : x = y → u = v)
    [Decidable (f x ≤ f y)] [Decidable (f x < f y)] : (if f x ≤ f y then u else v) = if f x < f y then u else v := by
  by_cases hxy : x = y
  · rw [h hxy, ite_self, ite_self]
  · exact if_congr (lt_iff_le_and_ne.trans (and_iff_left (hf.ne hxy))).symm rfl rfl

/-! ### The checked pointer sum (R98) -/

/-- `sum` is a place the pointer `x` may move to: `x` is not a code pointer, and its window and its tensor are kept. -/
def StaysInside (x : Word) (sum : Int) : Prop :=
  x.toNat / 2 ^ 62 ≠ 3 ∧ 0 ≤ sum ∧ sum < 2 ^ 64 ∧ sum.toNat / 2 ^ 62 = x.toNat / 2 ^ 62 ∧
    (x.toNat / 2 ^ 62 = 2 → sum.toNat / 2 ^ 44 = x.toNat / 2 ^ 44)

/-- PADD's sum is the exact one where that stays inside. -/
theorem paddSum_of_staysInside {x y : Word} (h : StaysInside x (x.toNat + y.toInt)) :
    paddSum x y = some (BitVec.ofInt 64 (x.toNat + y.toInt)) := by
  obtain ⟨hcode, hlow, hhigh, hwindow, htensor⟩ := h
  have hrange : ¬ ((x.toNat + y.toInt < 0 || (2 ^ 64 : Nat) ≤ x.toNat + y.toInt) = true) := by
    simpa using And.intro hlow hhigh
  have hkept : ¬ ((x.toNat / 2 ^ 62 = 2 && (x.toNat + y.toInt).toNat / 2 ^ 44 ≠ x.toNat / 2 ^ 44) = true) := by
    simpa using htensor
  simp only [paddSum]
  rw [if_neg hcode, if_neg hrange, if_neg (not_not_intro hwindow), if_neg hkept, ← BitVec.ofInt_natCast, Int.toNat_of_nonneg hlow]

/-- PADD refuses a sum that does not stay inside, since one that passes every refusal does. -/
theorem paddSum_of_not_staysInside {x y : Word} (h : ¬ StaysInside x (x.toNat + y.toInt)) : paddSum x y = none := by
  simp only [paddSum]
  split_ifs with hcode hrange hwindow htensor
  case neg =>
    simp only [Bool.or_eq_true, decide_eq_true_iff, not_or, not_lt, not_le] at hrange
    simp only [Bool.and_eq_true, decide_eq_true_iff, not_and, not_not] at htensor
    obtain ⟨hlow, hhigh⟩ := hrange
    exact absurd ⟨hcode, hlow, hhigh, not_not.mp hwindow, htensor⟩ h
  all_goals rfl

/-- R98: PADD's result where its sum stays inside, and its trap where it does not. -/
theorem padd_result (s : State) (k : KSel) (d a b : SReg) : let x := readS s.act0 a; let y := readS s.act0 b
    let sum : Int := x.toNat + y.toInt
    (StaysInside x sum → ScalarResult s (.padd k d a b) d (BitVec.ofInt 64 sum) 1) ∧
    (¬ StaysInside x sum → Traps s (.padd k d a b) 0x07 x.toNat y.toNat) := by
  intro x y sum
  constructor
  · intro hin
    exact completes_of_issue _ (exec_padd k d a b s) fun t => by simp only [paddSum_of_staysInside hin, sum, x, y]
  · intro hout
    exact completes_of_issue _ (exec_padd k d a b s) fun t => by simp only [paddSum_of_not_staysInside hout, codeWIN, x, y]

/-! ### The SALU (R97) -/

/-- Settles O1: each SALU sub-code is a scalar operation whose function is the rule's; PADD's sum is `padd_result`. -/
theorem scalarAluResults : Obligations.ScalarAluResults := by
  unfold Obligations.ScalarAluResults
  refine ⟨?_, padd_result⟩
  intro s k d a b x y
  refine ⟨?add, ?sub, ?and, ?or, ?xor, ?andn, ?shl, ?shr, ?sar, ?rotr, ?min, ?max, ?minn, ?maxn, ?seq, ?sne, ?slt, ?sltn,
    ?sel, ?clz, ?ctz, ?popc⟩
  case add => exact scalarResult_of_scalarOp (exec_add k d a b s) rfl
  case sub => exact scalarResult_of_scalarOp (exec_sub k d a b s) rfl
  case and => exact scalarResult_of_scalarOp (exec_and k d a b s) rfl
  case or => exact scalarResult_of_scalarOp (exec_or k d a b s) rfl
  case xor => exact scalarResult_of_scalarOp (exec_xor k d a b s) rfl
  case andn => exact scalarResult_of_scalarOp (exec_andn k d a b s) rfl
  case shl => exact scalarResult_of_scalarOp (exec_shl k d a b s) rfl
  case shr => exact scalarResult_of_scalarOp (exec_shr k d a b s) rfl
  case sar => exact scalarResult_of_scalarOp (exec_sar k d a b s) rfl
  case rotr => exact scalarResult_of_scalarOp (exec_rotr k d a b s) (rotrNat_toNat x _)
  case min => exact scalarResult_of_scalarOp (exec_min k d a b s) (ite_le_eq_ite_lt (fun _ _ => BitVec.eq_of_toInt_eq) id)
  case max => exact scalarResult_of_scalarOp (exec_max k d a b s) (ite_le_eq_ite_lt (fun _ _ => BitVec.eq_of_toInt_eq) Eq.symm)
  case minn => exact scalarResult_of_scalarOp (exec_minn k d a b s) (ite_le_eq_ite_lt (fun _ _ => BitVec.eq_of_toNat_eq) id)
  case maxn => exact scalarResult_of_scalarOp (exec_maxn k d a b s) (ite_le_eq_ite_lt (fun _ _ => BitVec.eq_of_toNat_eq) Eq.symm)
  case seq => exact scalarResult_of_scalarOp (exec_seq k d a b s) (boolWord_decide _)
  case sne => exact scalarResult_of_scalarOp (exec_sne k d a b s) ((boolWord_decide _).trans (ite_not ..))
  case slt => exact scalarResult_of_scalarOp (exec_slt k d a b s) (boolWord_decide _)
  case sltn => exact scalarResult_of_scalarOp (exec_sltn k d a b s) (boolWord_decide _)
  case sel => exact scalarResult_of_scalarOp (exec_sel k d a b s) (ite_not ..).symm
  case clz => exact scalarResult_of_scalarOp (exec_clz k d a s) (congrArg (BitVec.ofNat 64) (clzNat_toNat x))
  case ctz =>
    exact ⟨ctzNat 64 x.toNat, scalarResult_of_scalarOp (exec_ctz k d a s) rfl, ctzNat_le 64 _,
      fun _ => testBit_of_lt_ctzNat, testBit_ctzNat⟩
  case popc => exact scalarResult_of_scalarOp (exec_popc k d a s) (congrArg (BitVec.ofNat 64) (popcNat_eq_countP 64 x.toNat))

end Sys2Proof.Machine
end

section
/-! SUPPORT. Vectors of lane results: what a vector operation completes with, and where it traps (R84, R85, R138, R139). -/
namespace Sys2Proof.Machine

/-! ### Lanes -/

theorem lane_lt (w : Nat) (v : Vec) (n : Nat) : lane w v n < 2 ^ w := Nat.mod_lt _ (Nat.two_pow_pos w)

/-- Fields that agree in their low `w` bits pack to one number. -/
theorem packFrom_congr {w : Nat} {f g : Nat → Nat} : ∀ {n i : Nat}, (∀ j, i ≤ j → j < i + n → f j % 2 ^ w = g j % 2 ^ w) →
    packFrom w f n i = packFrom w g n i
  | 0, _, _ => rfl
  | n + 1, i, h => by
    rw [packFrom, packFrom, h i le_rfl (by omega), packFrom_congr fun j hj hj' => h j (by omega) (by omega)]

theorem ofLanes_congr {w : Nat} {f g : Nat → Nat} (h : ∀ n, n < lanes w → f n % 2 ^ w = g n % 2 ^ w) :
    ofLanes w f = ofLanes w g := by
  rw [ofLanes, packFrom_congr fun j _ hj => h j (by omega), ofLanes]

theorem ofLaneList_map_range (w : Nat) (f : Nat → Nat) : ofLaneList w ((List.range (lanes w)).map f) = ofLanes w f :=
  ofLanes_congr fun n hn => by simp [List.getD, hn]

/-! ### Flags -/

@[simp] theorem trapsOn_noFlags (en : Nat) : trapsOn en noFlags = false := by
  simp [trapsOn, show flagsNat noFlags = 0 from rfl]

@[simp] theorem addFlags_noFlags (s : State) : addFlags s noFlags = s := by
  simp [addFlags, show flagsNat noFlags = 0 from rfl]

/-- Lanes that raise nothing raise nothing together. -/
theorem allFlags_eq_noFlags {l : List FRes} (h : ∀ x ∈ l, x.2 = noFlags) : allFlags l = noFlags := by
  induction l with
  | nil => rfl
  | cons x l ih =>
    rw [List.forall_mem_cons] at h
    rw [allFlags, List.foldl_cons, h.1]
    exact ih h.2

theorem firstTrapping_eq_none {en : Nat} : ∀ {l : List FRes} {i : Nat}, (∀ x ∈ l, trapsOn en x.2 = false) → firstTrapping en l
    i = none
  | [], _, _ => rfl
  | x :: l, i, h => by
    rw [List.forall_mem_cons] at h
    rw [firstTrapping, h.1, if_neg Bool.false_ne_true, firstTrapping_eq_none h.2]

/-- The lowest trapping lane of consecutive ones is the one found. -/
theorem firstTrapping_map_range' {en n : Nat} {f : Nat → FRes} (ht : trapsOn en (f n).2 = true) : ∀ {k i : Nat}, i ≤ n → n < i
    + k →
    (∀ m, i ≤ m → m < n → trapsOn en (f m).2 = false) → firstTrapping en ((List.range' i k).map f) i = some n
  | 0, i, hi, hn, _ => by omega
  | k + 1, i, hi, hn, hm => by
    rw [List.range'_succ, List.map_cons, firstTrapping]
    rcases hi.eq_or_lt with rfl | hlt
    · rw [ht, if_pos rfl]
    · rw [hm i le_rfl hlt, if_neg Bool.false_ne_true,
        firstTrapping_map_range' ht hlt (by omega) fun m h1 h2 => hm m (by omega) h2]

theorem withFlags_of_none {s : State} {l : List FRes} {base : Nat} (eff : State → State)
    (h : ∀ x ∈ l, trapsOn (enables s.act0) x.2 = false) : withFlags s l base eff = eff (addFlags s (allFlags l)) := by
  rw [withFlags, firstTrapping_eq_none h]

theorem withFlags_of_some {s : State} {l : List FRes} {base n : Nat} (eff : State → State)
    (h : firstTrapping (enables s.act0) l base = some n) :
    withFlags s l base eff = slotTrap s codeFPX 0 (flagsNat (allFlags l) + 256 * n) := by
  rw [withFlags, h]

/-! ### Vector operations -/

/-- What the lanes of a vector operation are, its result is; its lowest trapping lane raises FPX (R84, R85). -/
theorem laneOp_of_vectorOp {i : Instr} {s : State} {d : VReg} {w lat : Nat} {f : State → Nat → FRes}
    (he : exec i s = vectorOp i d w lat f s) : LaneOp s i d w lat (f s) := by
  constructor
  · intro hnone
    have hnone' : ∀ x ∈ laneResults w (f s), trapsOn (enables s.act0) x.2 = false :=
      List.forall_mem_map.mpr fun n hn => hnone n (List.mem_range.mp hn)
    refine completes_of_issue _ he fun t => ?_
    rw [withFlags_of_none _ hnone', vecOfResults, laneResults, List.map_map]
    rfl
  · intro n hn htrap hlow
    refine completes_of_issue _ he fun t => ?_
    have hfirst : firstTrapping (enables s.act0) (laneResults w (f s)) 0 = some n := by
      rw [laneResults, List.range_eq_range']
      exact firstTrapping_map_range' htrap (Nat.zero_le n) (by omega) fun m _ => hlow m
    exact withFlags_of_some _ hfirst

/-- A vector operation that raises no flag has the lanes of any function that agrees with it in the low `w` bits. -/
theorem vectorResult_of_vectorOpN {i : Instr} {s : State} {d : VReg} {w lat : Nat} {f : State → Nat → Nat} {g : Nat → Nat}
    (he : exec i s = vectorOpN i d w lat f s) (hg : ∀ n, n < lanes w → f s n % 2 ^ w = g n % 2 ^ w) :
    VectorResult s i d (ofLanes w g) lat := by
  obtain ⟨hresult, -⟩ := laneOp_of_vectorOp he
  intro t heff
  rw [hresult (fun n _ => trapsOn_noFlags _) t heff, allFlags_eq_noFlags (by simp), addFlags_noFlags, ofLaneList_map_range,
    ofLanes_congr hg]

end Sys2Proof.Machine
end

section
/-! SUPPORT. The lanes of the shifts and of the unary operations that raise no flag (R147-R149). -/
namespace Sys2Proof.Machine

/-! ### Shifts (R147) -/

/-- VSHIFT's rotation is that of the lane's bits. -/
theorem rotr_lane {w x c : Nat} (hx : x < 2 ^ w) (hc : c < w) :
    (x / 2 ^ c + x % 2 ^ c * 2 ^ (w - c)) % 2 ^ w = ((BitVec.ofNat w x).rotateRight c).toNat := by
  have hrot := congrArg BitVec.toNat (rotrNat_toNat (BitVec.ofNat w x) c)
  rwa [BitVec.toNat_ofNat, BitVec.toNat_ofNat, Nat.mod_eq_of_lt hx, rotrNat, Nat.mod_eq_of_lt hc, Nat.mod_mod] at hrot

/-- R147: each shift of a lane by the lane of vB modulo the width. -/
theorem vshift_results (s : State) (k : KSel) (d a b : VReg) (t : LaneType) : let w := ltWidth t
    let x := lane w (readV s.act0 a)
    let c := fun n => lane w (readV s.act0 b) n % w
    let lanesOf := fun (i : Instr) (f : Nat → Nat) => VectorResult s i d (ofLanes w f) 2
    lanesOf (.vshiftShl k d a b t) (fun n => x n <<< c n) ∧
    lanesOf (.vshiftShr k d a b t) (fun n => x n >>> c n) ∧
    lanesOf (.vshiftSar k d a b t) (fun n => wrapNat w (sextInt w (x n) / (2 ^ c n : Nat))) ∧
    lanesOf (.vshiftRotr k d a b t) (fun n => ((BitVec.ofNat w (x n)).rotateRight (c n)).toNat) := by
  intro w x c lanesOf
  have hw : 0 < w := by cases t <;> decide
  refine ⟨?shl, ?shr, ?sar, ?rotr⟩
  case shl => exact vectorResult_of_vectorOpN (exec_vshiftShl k d a b t s) fun n _ => by rw [Nat.shiftLeft_eq]; exact Nat.mod_mod _ _
  case shr => exact vectorResult_of_vectorOpN (exec_vshiftShr k d a b t s) fun n _ => by rw [Nat.shiftRight_eq_div_pow]; rfl
  case sar => exact vectorResult_of_vectorOpN (exec_vshiftSar k d a b t s) fun _ _ => rfl
  case rotr =>
    exact vectorResult_of_vectorOpN (exec_vshiftRotr k d a b t s) fun n _ =>
      congrArg (· % 2 ^ w) (rotr_lane (lane_lt w _ n) (Nat.mod_lt _ hw))

/-! ### Bitwise operations (R146) -/

/-- A bitwise operation completes with its function of the registers before the bundle. -/
theorem vectorResult_of_bitOp {i : Instr} {s : State} {d : VReg} {f : Act → Vec} (he : exec i s = bitOp i d f s) :
    VectorResult s i d (f s.act0) 2 :=
  completes_of_issue (fun t s => resultV s d (f s.act0) 2 t) he fun _ => rfl

theorem vbit_results (s : State) (k : KSel) (d a b : VReg) : let x := readV s.act0 a; let y := readV s.act0 b
    VectorResult s (.vbitAnd k d a b) d (x &&& y) 2 ∧ VectorResult s (.vbitOr k d a b) d (x ||| y) 2 ∧
    VectorResult s (.vbitXor k d a b) d (x ^^^ y) 2 ∧ VectorResult s (.vbitAndn k d a b) d (x &&& ~~~y) 2 ∧
    VectorResult s (.vbitNot k d a) d (~~~x) 2 :=
  ⟨vectorResult_of_bitOp (exec_vbitAnd k d a b s), vectorResult_of_bitOp (exec_vbitOr k d a b s),
    vectorResult_of_bitOp (exec_vbitXor k d a b s), vectorResult_of_bitOp (exec_vbitAndn k d a b s),
    vectorResult_of_bitOp (exec_vbitNot k d a s)⟩

/-! ### Unary operations without flags (R148, R149) -/

/-- The two's complement of a lane. -/
theorem neg_lane {w x : Nat} (hx : x < 2 ^ w) : (2 ^ w - x) % 2 ^ w = wrapNat w (-(x : Int)) := by
  rw [wrapNat, ← Int.add_emod_right, neg_add_eq_sub, ← Nat.cast_sub hx.le, ← Int.natCast_mod, Int.toNat_natCast]

theorem clzNat_of_lt {w x : Nat} (hx : x < 2 ^ w) : clzNat w x = if x = 0 then w else w - 1 - Nat.log2 x := by
  rw [clzNat, Nat.mod_eq_of_lt hx]

/-- R149: the bit of CLASS, the subnormal test written the other way round. -/
theorem fClass_eq (f : FFmt) (n : Nat) : fClass f n = match decodeF f n with
    | .nan _ q _ => if q then 1 else 0
    | .inf neg => if neg then 2 else 9
    | .fin neg m e => if m = 0 then (if neg then 5 else 6)
      else if m < 2 ^ f.fbits ∧ e = emin f - f.fbits then (if neg then 4 else 7)
      else if neg then 3 else 8 := by
  rw [fClass]
  cases decodeF f n with
  | fin neg m e => simp only [and_comm]
  | _ => rfl

/-- R148, R149: each unary operation without flags, lane by lane. -/
theorem vunary_results (s : State) (k : KSel) (d a : VReg) (t : LaneType) : let w := ltWidth t
    let x := lane w (readV s.act0 a)
    let lanesOf := fun (i : Instr) (f : Nat → Nat) => VectorResult s i d (ofLanes w f) 2
    (ltFloat t = true → lanesOf (.vunaryAbs k d a t) (fun n => x n &&& (2 ^ (w - 1) - 1)) ∧
      lanesOf (.vunaryNeg k d a t) (fun n => x n ^^^ 2 ^ (w - 1))) ∧
    (ltFloat t = false → lanesOf (.vunaryAbs k d a t) (fun n => wrapNat w (sextInt w (x n)).natAbs) ∧
      lanesOf (.vunaryNeg k d a t) (fun n => wrapNat w (-(x n : Int)))) ∧
    lanesOf (.vunaryClass k d a t) (fun n => 2 ^ fClass (ltFmt t) (x n)) ∧
    lanesOf (.vunaryClz k d a t) (fun n => if x n = 0 then w else w - 1 - Nat.log2 (x n)) ∧
    lanesOf (.vunaryPopc k d a t) (fun n => (List.range w).countP fun i => (x n).testBit i) := by
  intro w x lanesOf
  refine ⟨fun hf => ⟨?fabs, ?fneg⟩, fun hi => ⟨?iabs, ?ineg⟩, ?cls, ?clz, ?popc⟩
  case fabs =>
    refine vectorResult_of_vectorOpN (exec_vunaryAbs k d a t s) fun n _ => ?_
    rw [if_pos hf, Nat.and_two_pow_sub_one_eq_mod]
    rfl
  case fneg =>
    refine vectorResult_of_vectorOpN (exec_vunaryNeg k d a t s) fun n _ => ?_
    rw [if_pos hf]
    rfl
  case iabs =>
    refine vectorResult_of_vectorOpN (exec_vunaryAbs k d a t s) fun n _ => ?_
    rw [if_neg (hi ▸ Bool.false_ne_true)]
    rfl
  case ineg =>
    refine vectorResult_of_vectorOpN (exec_vunaryNeg k d a t s) fun n _ => ?_
    rw [if_neg (hi ▸ Bool.false_ne_true)]
    exact congrArg (· % 2 ^ w) (neg_lane (lane_lt w _ n))
  case cls => exact vectorResult_of_vectorOpN (exec_vunaryClass k d a t s) fun _ _ => rfl
  case clz =>
    exact vectorResult_of_vectorOpN (exec_vunaryClz k d a t s) fun n _ => congrArg (· % 2 ^ w) (clzNat_of_lt (lane_lt w _ n))
  case popc =>
    exact vectorResult_of_vectorOpN (exec_vunaryPopc k d a t s) fun n _ => congrArg (· % 2 ^ w) (popcNat_eq_countP w (x n))

end Sys2Proof.Machine
end

section
/-! SUPPORT. Roundings of numbers known up to a remainder: the sticky bit of `roundMul`, and the numbers of F14 (R75, R151). -/
namespace Sys2Proof.Machine

/-! ### The sticky bit -/

/-- The multiple of a rounding with a remainder below the last bit: the bits of the fraction and the remainder decide. -/
theorem roundMul_sticky_of_lt (mode : Mode) (neg : Bool) (m : Nat) {e q : Int} {s : Nat} (hs : q - e = s + 1) :
    roundMul mode neg m e true q =
      (if roundsUp mode neg (decide (2 ^ s ≤ m % 2 ^ (s + 1))) false true (m / 2 ^ (s + 1) % 2 == 1)
        then m / 2 ^ (s + 1) + 1 else m / 2 ^ (s + 1), true) := by
  have hqe : ¬ q ≤ e := by omega
  have hnat : (q - e).toNat = s + 1 := by omega
  simp only [roundMul, if_neg hqe, hnat, Nat.add_sub_cancel, Bool.or_true, Bool.and_true, Bool.not_true, Bool.and_false]
  split
  case isTrue hsmall =>
    have hm : m < 2 ^ s := Nat.lt_log2_self.trans_le (Nat.pow_le_pow_right (by decide) (by omega))
    have hm' : m < 2 ^ (s + 1) := hm.trans (Nat.pow_lt_pow_right (by decide) (Nat.lt_succ_self s))
    rw [Nat.mod_eq_of_lt hm', Nat.div_eq_of_lt hm', decide_eq_false hm.not_ge]
    simp
  case isFalse =>
    have hle : ∀ d : Nat, (decide (2 ^ s < d) || d == 2 ^ s) = decide (2 ^ s ≤ d) := fun d => by
      rw [beq_eq_decide, ← Bool.decide_or]
      exact decide_eq_decide.mpr (by omega)
    rw [hle]

/-- The place rounded to splits a number with a remainder `δ`, which the sticky bit stands for, into the lower neighbour and a
fraction, which `roundMul` rounds. -/
theorem roundMul_sticky_eq_frac (mode : Mode) (neg : Bool) (m : Nat) {e q : Int} {δ : ℚ} (hqe : e < q) (h0 : 0 < δ) (h1 : δ < 1) :
    ∃ (k : Nat) (φ : ℚ), 0 ≤ φ ∧ φ < 1 ∧ (m + δ) * 2 ^ (e - q) = k + φ ∧
      (roundMul mode neg m e true q).1 = if fracRoundsUp mode neg k φ then k + 1 else k := by
  obtain ⟨s, hs⟩ : ∃ s : Nat, q - e = s + 1 := ⟨(q - e).toNat - 1, by omega⟩
  have hD : (0 : ℚ) < 2 ^ (s + 1) := by positivity
  have hmod : m % 2 ^ (s + 1) < 2 ^ (s + 1) := Nat.mod_lt _ (by positivity)
  have hm := Nat.div_add_mod m (2 ^ (s + 1))
  rw [roundMul_sticky_of_lt mode neg m hs]
  generalize m / 2 ^ (s + 1) = k at hm ⊢
  generalize m % 2 ^ (s + 1) = d at hm hmod ⊢
  have hd : (d : ℚ) + 1 ≤ 2 ^ (s + 1) := by exact_mod_cast hmod
  have hhalf : (1 / 2 : ℚ) * 2 ^ (s + 1) = (2 ^ s : Nat) := by push_cast; ring
  refine ⟨k, (d + δ) / 2 ^ (s + 1), by positivity, by rw [div_lt_one hD]; linarith, ?_, ?_⟩
  · have hz : e - q = -((s + 1 : Nat) : Int) := by push_cast; omega
    rw [hz, zpow_neg, zpow_natCast, ← hm]
    push_cast
    field_simp
    ring
  · have hup : (1 / 2 : ℚ) < (d + δ) / 2 ^ (s + 1) ↔ 2 ^ s ≤ d := by
      rw [lt_div_iff₀ hD, hhalf]
      refine ⟨fun h => ?_, fun h => lt_of_le_of_lt (Nat.cast_le.mpr h) (lt_add_of_pos_right _ h0)⟩
      have : ((2 ^ s : Nat) : ℚ) < (d + 1 : Nat) := by push_cast at h ⊢; linarith
      exact Nat.lt_succ_iff.mp (Nat.cast_lt.mp this)
    have htie : (d + δ) / 2 ^ (s + 1) ≠ 1 / 2 := by
      rw [Ne, div_eq_iff hD.ne', hhalf]
      intro h
      have hlt : (d : ℚ) < (2 ^ s : Nat) := by linarith
      have hgt : ((2 ^ s : Nat) : ℚ) < (d + 1 : Nat) := by push_cast at h ⊢; linarith
      exact absurd (Nat.lt_succ_iff.mp (Nat.cast_lt.mp hgt)) (Nat.cast_lt.mp hlt).not_ge
    have hne : (d + δ) / 2 ^ (s + 1) ≠ 0 := by positivity
    simp only [fracRoundsUp, hup, htie, hne, decide_false, ne_eq, not_false_eq_true, decide_true]

/-- `roundMul` takes the multiple that the mode chooses for a number with a remainder `δ` in the sticky bit. -/
theorem roundMul_sticky_intChosen (mode : Mode) (neg : Bool) (m : Nat) {e q : Int} {δ : ℚ} (hqe : e < q) (h0 : 0 < δ)
    (h1 : δ < 1) :
    IntChosen mode (signed neg ((m + δ) * 2 ^ e / 2 ^ q)) (signedInt neg (roundMul mode neg m e true q).1) := by
  obtain ⟨k, φ, hφ0, hφ1, hx, hr⟩ := roundMul_sticky_eq_frac mode neg m hqe h0 h1
  rw [mul_div_assoc, ← zpow_sub₀ two_ne_zero, hx, hr]
  split
  case isTrue h => exact intChosen_upper hφ0 hφ1 h
  case isFalse h => exact intChosen_lower hφ0 hφ1 (Bool.eq_false_of_not_eq_true h)

/-! ### F14 (R151) -/

theorem signedInt_natAbs (m : Int) : signedInt (decide (m < 0)) m.natAbs = m := by
  by_cases h : m < 0
  · rw [decide_eq_true h, signedInt, if_pos rfl]
    omega
  · rw [decide_eq_false h, signedInt, if_neg Bool.false_ne_true]
    omega

theorem isF14_signed {neg : Bool} {v : ℚ} (h : IsF14 v) : IsF14 (signed neg v) := by
  obtain ⟨m, k, hm, rfl⟩ := h
  cases neg
  · exact ⟨m, k, hm, rfl⟩
  · exact ⟨-m, k, by rwa [abs_neg], by push_cast; rw [signed_true, neg_mul]⟩

/-- The carry out of 15 bits is a number of F14 too. -/
theorem isF14_of_bits {k : Nat} (q : Int) (hk : k ≤ 2 ^ 15) : IsF14 (k * 2 ^ q) := by
  rcases hk.lt_or_eq with hlt | rfl
  · exact ⟨k, q, by rw [Nat.abs_cast]; exact_mod_cast hlt, by rw [Int.cast_natCast]⟩
  · refine ⟨2 ^ 14, q + 1, by decide, ?_⟩
    rw [zpow_add_one₀ two_ne_zero]
    push_cast
    ring

/-- The multiple that RNE chooses at the place of 15 bits is the nearest number of F14. -/
theorem f14_nearest {X : ℚ} {k : Nat} {q : Int} (hlo : 2 ^ 14 ≤ X / 2 ^ q) (h : IntChosen .rne (X / 2 ^ q) k) {z : ℚ}
    (hz : IsF14 z) :
    |(k : ℚ) * 2 ^ q - X| ≤ |z - X| := by
  obtain ⟨m, t, hm, rfl⟩ := hz
  have hu : (0 : ℚ) < 2 ^ q := by positivity
  have hval : (m : ℚ) * 2 ^ t = signed (decide (m < 0)) (m.natAbs * 2 ^ t) := by
    rw [signed_mul, ← cast_signedInt, signedInt_natAbs]
  have hbits : m.natAbs < 2 ^ (14 + 1) := by rw [Int.abs_eq_natAbs] at hm; exact_mod_cast hm
  have hgrid := gridBetween_of_bits (q := q) (t := t) (x := X / 2 ^ q) (decide (m < 0)) hbits
    (.inr (hlo.trans (le_abs_self _)))
  rw [← hval] at hgrid
  have hbest := bestAgainst_mul hu (bestAgainst_of_intChosen h hgrid)
  rw [div_mul_cancel₀ _ hu.ne', div_mul_cancel₀ _ hu.ne', Int.cast_natCast] at hbest
  exact hbest.1

/-- `v` is a number of F14, and none is nearer `X`. -/
def NearestF14 (X v : ℚ) : Prop := IsF14 v ∧ ∀ z, IsF14 z → |v - X| ≤ |z - X|

theorem nearestF14_signed {X v : ℚ} (neg : Bool) (h : NearestF14 X v) : NearestF14 (signed neg X) (signed neg v) := by
  refine ⟨isF14_signed h.1, fun z hz => ?_⟩
  have habs : ∀ y : ℚ, |signed neg y - signed neg X| = |y - X| := fun y => by
    rw [signed_sub]
    cases neg <;> simp [abs_sub_comm]
  have hz' : signed neg (signed neg z) = z := by cases neg <;> simp
  rw [habs, ← hz', habs]
  exact h.2 _ (isF14_signed hz)

/-- A number of F14 on either side of the nearest one leaves `X` on the nearest one's side of the middle. -/
theorem middle_of_nearest {X v z : ℚ} (h : |v - X| ≤ |z - X|) : (v < z → 2 * X ≤ v + z) ∧ (z < v → v + z ≤ 2 * X) := by
  have h1 := neg_abs_le (v - X)
  have h2 := le_abs_self (v - X)
  constructor <;> intro hlt <;> rcases abs_cases (z - X) with ⟨he, -⟩ | ⟨he, -⟩ <;> linarith

/-- A number with a remainder `δ`, zero where the sticky bit is clear, rounded to F14 (R151). -/
theorem roundF14_nearest {Q : Nat} (E : Int) {st : Bool} {δ : ℚ} (hQ : 14 < Nat.log2 Q) (h0 : 0 ≤ δ) (h1 : δ < 1)
    (hst : δ = 0 ↔ st = false) :
    0 < (roundF14 Q E st).1 ∧ NearestF14 ((Q + δ) * 2 ^ E) ((roundF14 Q E st).1 * 2 ^ (roundF14 Q E st).2) := by
  have hQ0 : Q ≠ 0 := by rintro rfl; simp at hQ
  have hchosen : IntChosen .rne (signed false ((Q + δ) * 2 ^ E / 2 ^ (E + Nat.log2 Q - 14)))
      (signedInt false (roundF14 Q E st).1) := by
    cases st with
    | false =>
      obtain rfl := hst.mpr rfl
      rw [add_zero]
      exact (roundMul_spec .rne false Q E _).1
    | true => exact roundMul_sticky_intChosen .rne false Q (by omega) (h0.lt_of_ne fun h => by simpa using hst.mp h.symm) h1
  have hplace : (2 : ℚ) ^ 14 ≤ (Q + δ) * 2 ^ E / 2 ^ (E + Nat.log2 Q - 14) ∧
      (Q + δ) * 2 ^ E / 2 ^ (E + Nat.log2 Q - 14) ≤ 2 ^ 15 := by
    have hu : (0 : ℚ) < 2 ^ (E + Nat.log2 Q - 14) := by positivity
    constructor
    · calc (2 : ℚ) ^ 14 ≤ Q * 2 ^ E / 2 ^ (E + Nat.log2 Q - 14) := (div_place_bits hQ0 E 14).1
        _ ≤ (Q + δ) * 2 ^ E / 2 ^ (E + Nat.log2 Q - 14) := by gcongr; linarith
    · have hhi : (Q : ℚ) + 1 ≤ (2 ^ (Nat.log2 Q + 1) : Nat) := by exact_mod_cast Nat.lt_log2_self
      have hcarry : ((2 ^ (Nat.log2 Q + 1) : Nat) : ℚ) * 2 ^ E = 2 ^ 15 * 2 ^ (E + Nat.log2 Q - 14) := by
        refine Eq.trans ?_ (two_pow_succ_mul_zpow_sub 14 (E + Nat.log2 Q)).symm
        rw [Nat.cast_pow, Nat.cast_ofNat, ← zpow_natCast, ← zpow_add₀ two_ne_zero]
        congr 1
        push_cast
        ring
      rw [div_le_iff₀ hu, ← hcarry]
      gcongr
      linarith
  have hr := (show (0 : ℚ) ≤ 2 ^ 14 by positivity).trans hplace.1
  have hk1 := ge_of_intChosen (M := 2 ^ 14) hr hchosen (by exact_mod_cast hplace.1)
  have hk2 := le_of_intChosen (M := 2 ^ 15) hr hchosen (by exact_mod_cast hplace.2)
  exact ⟨by omega, isF14_of_bits _ hk2, fun z hz => f14_nearest hplace.1 hchosen hz⟩

/-! ### Reciprocals (R151) -/

/-- The quotient of a power of two that leaves `j` bits beyond those of the divisor has `j` bits. -/
theorem le_log2_two_pow_div {m j sh : Nat} (hm : m ≠ 0) (h : Nat.log2 m + 1 + j ≤ sh) : j ≤ Nat.log2 (2 ^ sh / m) := by
  have hle : 2 ^ j ≤ 2 ^ sh / m := by
    rw [Nat.le_div_iff_mul_le (Nat.pos_of_ne_zero hm)]
    calc 2 ^ j * m ≤ 2 ^ j * 2 ^ (Nat.log2 m + 1) := Nat.mul_le_mul_left _ Nat.lt_log2_self.le
      _ = 2 ^ (Nat.log2 m + 1 + j) := by rw [← Nat.pow_add, Nat.add_comm]
      _ ≤ 2 ^ sh := Nat.pow_le_pow_right (by decide) h
  exact (Nat.le_log2 (Nat.ne_zero_of_lt (Nat.two_pow_pos j |>.trans_le hle))).mpr hle

/-- A quotient and the part of its remainder are the reciprocal. -/
theorem div_add_mod_div_eq_inv {m sh : Nat} (hm : m ≠ 0) (e : Int) :
    (((2 ^ sh / m : Nat) : ℚ) + ((2 ^ sh % m : Nat) : ℚ) / m) * 2 ^ (-e - sh) = 1 / (m * 2 ^ e) := by
  have hm' : (m : ℚ) ≠ 0 := Nat.cast_ne_zero.mpr hm
  have hdiv : (m : ℚ) * ((2 ^ sh / m : Nat) : ℚ) + ((2 ^ sh % m : Nat) : ℚ) = 2 ^ (sh : Int) := by
    rw [zpow_natCast]
    exact_mod_cast Nat.div_add_mod (2 ^ sh) m
  rw [add_div' _ _ _ hm', mul_comm _ (m : ℚ), hdiv, sub_eq_add_neg, zpow_add₀ two_ne_zero, zpow_neg, zpow_neg]
  field_simp

/-- RCPE of a number that is not zero: the nearest number of F14 to the reciprocal, rounded once into the format. -/
theorem fRcpe_of_fin {f : FFmt} (hf : f ∈ floatFormats) {a m : Nat} {neg : Bool} {e : Int} (ha : decodeF f a = .fin neg m e)
    (hm : m ≠ 0) :
    ∃ v, NearestF14 (1 / fval (.fin neg m e)) v ∧ Rounded f .rne v (fRcpe f a) := by
  obtain ⟨sh, hsh⟩ : ∃ sh, sh = Nat.log2 m + 40 := ⟨_, rfl⟩
  have hlog : 39 ≤ Nat.log2 (2 ^ sh / m) := le_log2_two_pow_div hm (by omega)
  have hm0 : (0 : ℚ) < m := Nat.cast_pos.mpr (Nat.pos_of_ne_zero hm)
  have hrest : ((2 ^ sh % m : Nat) : ℚ) / m < 1 := by
    rw [div_lt_one hm0]
    exact_mod_cast Nat.mod_lt _ (Nat.pos_of_ne_zero hm)
  obtain ⟨hk, hnear⟩ := roundF14_nearest (Q := 2 ^ sh / m) (-e - sh) (st := 2 ^ sh % m != 0) (by omega) (by positivity) hrest
    (by simp [hm])
  rw [div_add_mod_div_eq_inv hm] at hnear
  have hsign : 1 / fval (.fin neg m e) = signed neg (1 / (m * 2 ^ e)) := by
    rw [fval_fin]
    cases neg
    · rfl
    · rw [signed_true, signed_true, div_neg]
  have hres : fRcpe f a = roundFin f .rne neg (roundF14 (2 ^ sh / m) (-e - sh) (2 ^ sh % m != 0)).1
      (roundF14 (2 ^ sh / m) (-e - sh) (2 ^ sh % m != 0)).2 := by
    simp [fRcpe, propagateNaN, ha, isNaN, hm, ← hsh]
  refine ⟨_, hsign ▸ nearestF14_signed neg hnear, ?_⟩
  rw [hres, ← fval_fin]
  exact roundingChoosesTheNearest f .rne neg _ _ hf hk.ne'

/-! ### Square roots (R151) -/

/-- Bisection keeps the root between its two ends. -/
theorem isqrtFrom_spec {x : Nat} : ∀ {n acc : Nat}, acc * acc ≤ x → x < (acc + 2 ^ n) * (acc + 2 ^ n) →
    isqrtFrom x n acc * isqrtFrom x n acc ≤ x ∧ x < (isqrtFrom x n acc + 1) * (isqrtFrom x n acc + 1)
  | 0, _, hlo, hhi => ⟨hlo, hhi⟩
  | n + 1, acc, hlo, hhi => by
    simp only [isqrtFrom]
    split
    case isTrue h => exact isqrtFrom_spec h (by rwa [Nat.add_assoc, ← Nat.two_mul, ← Nat.pow_succ'])
    case isFalse h => exact isqrtFrom_spec hlo (not_le.mp h)

theorem isqrt_spec (x : Nat) : isqrt x * isqrt x ≤ x ∧ x < (isqrt x + 1) * (isqrt x + 1) := by
  refine isqrtFrom_spec (Nat.zero_le _) ?_
  rw [Nat.zero_add, ← Nat.pow_add]
  exact Nat.lt_log2_self.trans_le (Nat.pow_le_pow_right (by decide) (by omega))

/-- A root has half the bits of its square. -/
theorem le_log2_isqrt {x j : Nat} (hx : x ≠ 0) (h : 2 * j ≤ Nat.log2 x) : j ≤ Nat.log2 (isqrt x) := by
  have hpow : 2 ^ j * 2 ^ j ≤ x := by
    rw [← Nat.pow_add, ← Nat.two_mul]
    exact (Nat.pow_le_pow_right (by decide) h).trans (Nat.log2_self_le hx)
  have hle : 2 ^ j ≤ isqrt x := by
    have hlt : 2 ^ j < isqrt x + 1 := lt_of_mul_self_lt_mul_self₀ (Nat.zero_le _) (hpow.trans_lt (isqrt_spec x).2)
    omega
  exact (Nat.le_log2 (Nat.ne_zero_of_lt (Nat.two_pow_pos j |>.trans_le hle))).mpr hle

/-- The root of a quotient bounds the root of the exact quotient: from below, and from above by one more; it is that root where
neither the root nor the quotient leaves a remainder. -/
theorem isqrt_div_bounds {N m : Nat} (hm : 0 < m) : let r := isqrt (N / m)
    m * (r * r) ≤ N ∧ N ≤ m * ((r + 1) * (r + 1)) ∧ (r * r = N / m → N % m = 0 → m * (r * r) = N) := by
  intro r
  obtain ⟨hlo, hhi⟩ := isqrt_spec (N / m)
  refine ⟨(Nat.mul_le_mul_left m hlo).trans (Nat.mul_div_le N m), ?_, fun hr hz => ?_⟩
  · exact (Nat.lt_mul_div_succ N hm).le.trans (Nat.mul_le_mul_left m hhi)
  · rw [hr, Nat.mul_div_cancel' (Nat.dvd_of_mod_eq_zero hz)]

/-- A magnitude of more than 15 bits with a sticky bit rounds to a positive number of F14. -/
theorem roundF14_isF14 {Q : Nat} (E : Int) (st : Bool) (hQ : 14 < Nat.log2 Q) :
    0 < (roundF14 Q E st).1 ∧ IsF14 ((roundF14 Q E st).1 * 2 ^ (roundF14 Q E st).2) := by
  cases st with
  | false =>
    obtain ⟨hk, hf14, -⟩ := roundF14_nearest E hQ le_rfl zero_lt_one (st := false) (by simp)
    exact ⟨hk, hf14⟩
  | true =>
    obtain ⟨hk, hf14, -⟩ := roundF14_nearest E hQ one_half_pos.le one_half_lt_one (st := true) (by simp)
    exact ⟨hk, hf14⟩

/-- What holds beside every remainder holds at both ends. -/
theorem add_one_le_of_remainders {c x : ℚ} (h : ∀ δ : ℚ, 0 < δ → δ < 1 → c + δ ≤ x) : c + 1 ≤ x := by
  refine le_of_forall_lt_imp_le_of_dense fun y hy => ?_
  have hmax := h (max (y - c) (1 / 2)) (lt_max_of_lt_right one_half_pos) (max_lt (by linarith) one_half_lt_one)
  have hle := le_max_left (y - c) (1 / 2)
  linarith

theorem le_of_remainders {c x : ℚ} (h : ∀ δ : ℚ, 0 < δ → δ < 1 → x ≤ c + δ) : x ≤ c := by
  refine le_of_forall_gt_imp_ge_of_dense fun y hy => ?_
  have hmin := h (min (y - c) (1 / 2)) (lt_min (by linarith) one_half_pos) (min_lt_of_right_lt one_half_lt_one)
  have hle := min_le_left (y - c) (1 / 2)
  linarith

/-- A root `r` with a sticky bit, rounded to F14: the middle between the result and any other number of F14 is not inside the last
place of the root. -/
theorem roundF14_middle {r : Nat} (E : Int) (st : Bool) (hr : 14 < Nat.log2 r) {z : ℚ} (hz : IsF14 z) :
    let v : ℚ := (roundF14 r E st).1 * 2 ^ (roundF14 r E st).2
    (v < z → 2 * (((r + st.toNat : Nat) : ℚ) * 2 ^ E) ≤ v + z) ∧ (z < v → v + z ≤ 2 * (r * 2 ^ E)) := by
  intro v
  have hu : (0 : ℚ) < 2 ^ E := by positivity
  cases st with
  | false =>
    have hnear := (roundF14_nearest E hr le_rfl zero_lt_one (st := false) (by simp)).2.2 z hz
    rw [add_zero] at hnear
    exact middle_of_nearest hnear
  | true =>
    have hmid : ∀ δ : ℚ, 0 < δ → δ < 1 → (v < z → r + δ ≤ (v + z) / (2 * 2 ^ E)) ∧ (z < v → (v + z) / (2 * 2 ^ E) ≤ r + δ) := by
      intro δ h0 h1
      rw [le_div_iff₀ (by positivity), div_le_iff₀ (by positivity), mul_left_comm]
      exact middle_of_nearest ((roundF14_nearest E hr h0.le h1 (st := true) (by simp [h0.ne'])).2.2 z hz)
    constructor
    · intro hlt
      have hle := add_one_le_of_remainders fun δ h0 h1 => (hmid δ h0 h1).1 hlt
      rwa [le_div_iff₀ (by positivity), mul_left_comm, ← Nat.cast_succ] at hle
    · intro hlt
      have hle := le_of_remainders fun δ h0 h1 => (hmid δ h0 h1).2 hlt
      rwa [div_le_iff₀ (by positivity), mul_left_comm] at hle

/-- The root of the reciprocal: with the middle of `v` and `z` it is compared by squares. -/
theorem fRsqe_of_fin {f : FFmt} (hf : f ∈ floatFormats) {a m : Nat} {e : Int} (ha : decodeF f a = .fin false m e) (hm : m ≠ 0) :
    ∃ v, IsF14 v ∧ 0 < v ∧ (∀ z, IsF14 z → (v < z → 4 ≤ fval (.fin false m e) * (v + z) ^ 2) ∧
      (0 ≤ z → z < v → fval (.fin false m e) * (v + z) ^ 2 ≤ 4)) ∧ Rounded f .rne v (fRsqe f a) := by
  obtain ⟨sh, hsh⟩ : ∃ sh, sh = 2 * Nat.log2 m + 80 + (e % 2).toNat := ⟨_, rfl⟩
  obtain ⟨E, hE⟩ : ∃ E : Int, E = (-e - sh) / 2 := ⟨_, rfl⟩
  obtain ⟨st, hst⟩ : ∃ st : Bool, st = (isqrt (2 ^ sh / m) * isqrt (2 ^ sh / m) != 2 ^ sh / m || 2 ^ sh % m != 0) := ⟨_, rfl⟩
  have hm0 := Nat.pos_of_ne_zero hm
  have hlogq : 78 ≤ Nat.log2 (2 ^ sh / m) := le_log2_two_pow_div hm (by omega)
  have hlog : 39 ≤ Nat.log2 (isqrt (2 ^ sh / m)) := le_log2_isqrt (fun h => by simp [h] at hlogq) hlogq
  obtain ⟨hlo, hhi, hexact⟩ := isqrt_div_bounds (N := 2 ^ sh) hm0
  have hres : fRsqe f a = roundFin f .rne false (roundF14 (isqrt (2 ^ sh / m)) E st).1 (roundF14 (isqrt (2 ^ sh / m)) E st).2 := by
    simp [fRsqe, propagateNaN, ha, isNaN, hm, ← hsh, ← hE, ← hst]
  generalize isqrt (2 ^ sh / m) = r at *
  have hlog' : 14 < Nat.log2 r := by omega
  obtain ⟨hk, hf14⟩ := roundF14_isF14 E st hlog'
  have hx : (0 : ℚ) < m * 2 ^ e := mul_pos (Nat.cast_pos.mpr hm0) (by positivity)
  have hscale : ∀ n : Nat, (m : ℚ) * 2 ^ e * (2 * (n * 2 ^ E)) ^ 2 = 4 * (((m * (n * n) : Nat) : ℚ) / (2 ^ sh : Nat)) := by
    intro n
    have hpow : (2 : ℚ) ^ e * (2 ^ E * 2 ^ E) = ((2 ^ sh : Nat) : ℚ)⁻¹ := by
      rw [← zpow_add₀ two_ne_zero, ← zpow_add₀ two_ne_zero, Nat.cast_pow, Nat.cast_ofNat, ← zpow_natCast, ← zpow_neg]
      congr 1
      omega
    rw [div_eq_mul_inv, ← hpow]
    push_cast
    ring
  rw [fval_fin, signed_false]
  refine ⟨_, hf14, by positivity, fun z hz => ⟨fun hlt => ?_, fun hz0 hlt => ?_⟩, ?_⟩
  · have hle := (roundF14_middle E st hlog' hz).1 hlt
    have hN : 2 ^ sh ≤ m * ((r + st.toNat) * (r + st.toNat)) := by
      cases st with
      | false =>
        simp only [Bool.false_eq, Bool.or_eq_false_iff, bne_eq_false_iff_eq] at hst
        exact (hexact hst.1 hst.2).ge
      | true => exact hhi
    calc (4 : ℚ) ≤ 4 * (((m * ((r + st.toNat) * (r + st.toNat)) : Nat) : ℚ) / (2 ^ sh : Nat)) := by
          rw [le_mul_iff_one_le_right four_pos, one_le_div (by positivity)]
          exact_mod_cast hN
      _ = m * 2 ^ e * (2 * (((r + st.toNat : Nat) : ℚ) * 2 ^ E)) ^ 2 := (hscale _).symm
      _ ≤ _ := by gcongr
  · have hle := (roundF14_middle E st hlog' hz).2 hlt
    have hsum : 0 ≤ ((roundF14 r E st).1 : ℚ) * 2 ^ (roundF14 r E st).2 + z := by positivity
    calc _ ≤ m * 2 ^ e * (2 * ((r : ℚ) * 2 ^ E)) ^ 2 := by gcongr
      _ = 4 * (((m * (r * r) : Nat) : ℚ) / (2 ^ sh : Nat)) := hscale r
      _ ≤ 4 := by
        rw [mul_le_iff_le_one_right four_pos, div_le_one (by positivity)]
        exact_mod_cast hlo
  · rw [hres, ← signed_false (_ * _), ← fval_fin]
    exact roundingChoosesTheNearest f .rne false _ _ hf hk.ne'

end Sys2Proof.Machine
end

section
/-! SUPPORT. GETEXP, RCPE and RSQE of every operand, and the claim on VBIT, VSHIFT and VUNARY (R146-R151). -/
namespace Sys2Proof.Machine

/-! ### Exponents (R150) -/

/-- The largest place of a finite number of a format with infinities. -/
theorem decodeF_fin_place_le {f : FFmt} (hf : f ∈ floatFormats) (h43 : f.e4m3 = false) {y : Nat} {n : Bool} {m : Nat} {t : Int}
    (h : decodeF f y = .fin n m t) : t ≤ emax f - f.fbits := by
  obtain ⟨-, -, hones, hemax, -⟩ := floatFormats_fields hf
  have hle := emin_le_emax hf
  have hex : y / 2 ^ f.fbits % 2 ^ f.ebits < 2 ^ f.ebits := Nat.mod_lt _ (by positivity)
  rw [h43, if_neg Bool.false_ne_true] at hemax
  simp only [decodeF, h43, Bool.false_eq_true, if_false] at h
  split at h
  case isTrue => split at h <;> cases h
  case isFalse hne => split at h <;> cases h <;> omega

/-- A natural number of the bits of the format is its own rounding. -/
theorem roundFin_natural {f : FFmt} (hf : f ∈ floatFormats) (h43 : f.e4m3 = false) (hmin : emin f ≤ 0) (hmax : f.fbits ≤ emax f)
    (mode : Mode) (neg : Bool) {m : Nat} (hm : m < 2 ^ (f.fbits + 1)) :
    FiniteBits f (roundFin f mode neg m 0).1 ∧ (roundFin f mode neg m 0).2 = noFlags ∧
      fval (decodeF f (roundFin f mode neg m 0).1) = signed neg m := by
  rcases Nat.eq_zero_or_pos m with rfl | hpos
  · have henc := encodes_subnormal hf neg (Nat.zero_le (2 ^ f.fbits))
    simp only [encodeMag, if_true] at henc
    simp only [roundFin, and_self, if_true]
    exact ⟨henc.finite, trivial, by simpa using henc.value⟩
  · have hlog : Nat.log2 m ≤ f.fbits := Nat.lt_succ_iff.mp ((Nat.log2_lt hpos.ne').mpr hm)
    obtain ⟨j, hj⟩ : ∃ j, f.fbits = Nat.log2 m + j := ⟨f.fbits - Nat.log2 m, by omega⟩
    have hlo : 2 ^ f.fbits ≤ m * 2 ^ j := by
      rw [hj, Nat.pow_add]
      exact Nat.mul_le_mul_right _ (Nat.log2_self_le hpos.ne')
    have hhi : m * 2 ^ j < 2 ^ (f.fbits + 1) := by
      rw [hj, Nat.add_right_comm, Nat.pow_add]
      exact Nat.mul_lt_mul_of_pos_right Nat.lt_log2_self (Nat.two_pow_pos j)
    have hplace : (0 : Int) + Nat.log2 m - f.fbits = -j := by omega
    have hmul : roundMul mode neg m 0 false (-j) = (m * 2 ^ j, false) := by
      rw [roundMul, if_pos (by omega), show (0 - -(j : Int)).toNat = j by omega]
    have henc := encodes_of_fits hf neg (k := m * 2 ^ j) (q := -j) (.inr ⟨hlo, hhi, by omega, by omega, by simp [h43]⟩)
    have hres : roundFin f mode neg m 0 = (withSign f neg (encodeMag f (m * 2 ^ j) (-j)), noFlags) := by
      rw [roundFin, if_neg (fun h => hpos.ne' h.1)]
      simp only [roundMag, hplace, hmul, log2_of_bits hlo hhi, h43, Bool.false_and, Bool.or_false, decide_eq_true_eq]
      rw [if_neg (by simp; omega), if_neg (by omega)]
      rfl
    rw [hres]
    refine ⟨henc.finite, rfl, ?_⟩
    rw [henc.value, Nat.cast_mul, Nat.cast_pow, Nat.cast_ofNat, mul_assoc, ← zpow_natCast, ← zpow_add₀ two_ne_zero, add_neg_cancel,
      zpow_zero, mul_one]

/-- The float lane types have formats with infinities, in which every exponent of a finite number is a number. -/
theorem ltFmt_fields (t : LaneType) (ht : ltFloat t = true) : ltFmt t ∈ floatFormats ∧ (ltFmt t).e4m3 = false ∧ emin (ltFmt t)
    ≤ 0 ∧
    (ltFmt t).fbits ≤ emax (ltFmt t) ∧ emax (ltFmt t) < (2 ^ ((ltFmt t).fbits + 1) : Nat) ∧
    (ltFmt t).fbits - emin (ltFmt t) < (2 ^ ((ltFmt t).fbits + 1) : Nat) := by
  revert ht
  cases t <;> decide

/-- R150: GETEXP of a number that is not zero is exactly the floor of its binary logarithm. -/
theorem fGetexp_of_fin {t : LaneType} (ht : ltFloat t = true) {a m : Nat} {neg : Bool} {e : Int}
    (ha : decodeF (ltFmt t) a = .fin neg m e)
    (hm : m ≠ 0) : FiniteBits (ltFmt t) (fGetexp (ltFmt t) a).1 ∧ (fGetexp (ltFmt t) a).2 = noFlags ∧ ∃ k : Int,
      fval (decodeF (ltFmt t) (fGetexp (ltFmt t) a).1) = k ∧ (2 : ℚ) ^ k ≤ |fval (.fin neg m e)| ∧
      |fval (.fin neg m e)| < (2 : ℚ) ^ (k + 1) := by
  obtain ⟨hf, h43, hmin, hmax, hhigh, hlow⟩ := ltFmt_fields t ht
  obtain ⟨hbits, hplace⟩ := decodeF_fin_bounds ha
  have hplace' := decodeF_fin_place_le hf h43 ha
  have hlog : Nat.log2 m ≤ (ltFmt t).fbits := Nat.lt_succ_iff.mp ((Nat.log2_lt hm).mpr hbits)
  obtain ⟨k, hk⟩ : ∃ k, k = e + (Nat.log2 m : Int) := ⟨_, rfl⟩
  have hres : fGetexp (ltFmt t) a = roundFin (ltFmt t) .rne (decide (k < 0)) k.natAbs 0 := by
    simp [fGetexp, propagateNaN, ha, isNaN, hm, ← hk]
  have hsmall : k.natAbs < 2 ^ ((ltFmt t).fbits + 1) := by
    generalize 2 ^ ((ltFmt t).fbits + 1) = N at *
    omega
  obtain ⟨hfin, hflags, hval⟩ := roundFin_natural hf h43 hmin hmax .rne (decide (k < 0)) hsmall
  rw [hres]
  refine ⟨hfin, hflags, k, ?_, ?_, ?_⟩
  · rw [hval, ← cast_signedInt, signedInt_natAbs]
  · rw [fval_fin, abs_signed neg (by positivity), ← le_add_log2_iff hm, hk]
  · rw [fval_fin, abs_signed neg (by positivity), ← not_le, ← le_add_log2_iff hm]
    omega

/-- R84, R85: GETEXP, RCPE and RSQE, lane by lane with their flags. -/
theorem vunary_estimates (s : State) (k : KSel) (d a : VReg) (t : LaneType) : let w := ltWidth t
    let x := lane w (readV s.act0 a)
    LaneOp s (.vunaryGetexp k d a t) d w 2 (fun n => fGetexp (ltFmt t) (x n)) ∧
    LaneOp s (.vunaryRcpe k d a t) d w 4 (fun n => fRcpe (ltFmt t) (x n)) ∧
    LaneOp s (.vunaryRsqe k d a t) d w 4 (fun n => fRsqe (ltFmt t) (x n)) :=
  ⟨laneOp_of_vectorOp (f := fun s n => fGetexp (ltFmt t) (unLane t a s n)) (exec_vunaryGetexp k d a t s),
    laneOp_of_vectorOp (f := fun s n => fRcpe (ltFmt t) (unLane t a s n)) (exec_vunaryRcpe k d a t s),
    laneOp_of_vectorOp (f := fun s n => fRsqe (ltFmt t) (unLane t a s n)) (exec_vunaryRsqe k d a t s)⟩

/-! ### NaNs, infinities and zeros -/

theorem propagateNaN_single (f : FFmt) (a : Nat) : propagateNaN f [a] =
    if isNaN (decodeF f a) then some (quieten f a, flagNV (isSNaN (decodeF f a))) else none := by
  cases h : isNaN (decodeF f a) <;> simp [propagateNaN, h]

/-- R80: GETEXP, RCPE and RSQE propagate a NaN. -/
theorem estimates_of_nan {f : FFmt} {a : Nat} (h : isNaN (decodeF f a) = true) :
    ∀ r ∈ [fGetexp f a, fRcpe f a, fRsqe f a], r = (quieten f a, flagNV (isSNaN (decodeF f a))) := by
  simp [fGetexp, fRcpe, fRsqe, propagateNaN_single, h]

theorem estimates_of_inf {f : FFmt} {a : Nat} {q : Bool} (h : decodeF f a = .inf q) :
    fGetexp f a = (infMag f, noFlags) ∧ fRcpe f a = (withSign f q 0, noFlags) ∧
      fRsqe f a = if q then (canonNaN f, flagNV true) else (0, noFlags) := by
  simp [fGetexp, fRcpe, fRsqe, propagateNaN_single, h, isNaN, invalidRes]

theorem estimates_of_zero {f : FFmt} {a : Nat} {q : Bool} {e : Int} (h : decodeF f a = .fin q 0 e) :
    fGetexp f a = (withSign f true (infMag f), { dz := true }) ∧ fRcpe f a = (withSign f q (infMag f), { dz := true }) ∧
      fRsqe f a = (withSign f q (infMag f), { dz := true }) := by
  simp [fGetexp, fRcpe, fRsqe, propagateNaN_single, h, isNaN]

theorem fRsqe_of_neg {f : FFmt} {a m : Nat} {e : Int} (h : decodeF f a = .fin true m e) (hm : m ≠ 0) :
    fRsqe f a = (canonNaN f, flagNV true) := by
  simp [fRsqe, propagateNaN_single, h, isNaN, hm, invalidRes]

/-! ### Signs of finite numbers -/

theorem fval_fin_eq_zero {neg : Bool} {m : Nat} {e : Int} : fval (.fin neg m e) = 0 ↔ m = 0 := by
  rw [fval_fin]
  cases neg <;> simp [zpow_ne_zero]

/-- A number below zero has a sign and a magnitude. -/
theorem neg_of_fval_lt_zero {neg : Bool} {m : Nat} {e : Int} (h : fval (.fin neg m e) < 0) : neg = true := by
  rw [fval_fin] at h
  cases neg
  · exact absurd h (by rw [signed_false, not_lt]; positivity)
  · rfl

/-- A number above zero has no sign. -/
theorem pos_of_fval_pos {neg : Bool} {m : Nat} {e : Int} (h : 0 < fval (.fin neg m e)) : neg = false := by
  rw [fval_fin] at h
  cases neg
  · rfl
  · exact absurd h (by rw [signed_true, not_lt, Left.neg_nonpos_iff]; positivity)

/-- Settles O11: the lanes are the rules' functions; the estimates are taken operand by operand. -/
theorem vectorBitsShiftsAndUnary : Obligations.VectorBitsShiftsAndUnary := by
  unfold Obligations.VectorBitsShiftsAndUnary
  refine ⟨fun s k d a b t => ?bits, fun s k d a t => ?unary, fun t n ht => ?estimates⟩
  case bits =>
    obtain ⟨hand, hor, hxor, handn, hnot⟩ := vbit_results s k d a b
    exact ⟨hand, hor, hxor, handn, hnot, vshift_results s k d a b t⟩
  case unary =>
    obtain ⟨hfloat, hint, hclass, hclz, hpopc⟩ := vunary_results s k d a t
    simp only [fClass_eq] at hclass
    obtain ⟨hgetexp, hrcpe, hrsqe⟩ := vunary_estimates s k d a t
    exact ⟨hfloat, hint, hclass, hgetexp, hclz, hpopc, hrcpe, hrsqe⟩
  case estimates =>
    intro f x fin dz twice
    have hf : f ∈ floatFormats := (ltFmt_fields t ht).1
    refine ⟨estimates_of_nan, fun q => estimates_of_inf, ?zero, ?getexp, ?rcpe, ?negative, ?rsqe⟩
    case zero =>
      rintro ⟨q, m, e, hx⟩ h0
      rw [hx, fval_fin_eq_zero] at h0
      rw [hx]
      exact estimates_of_zero (h0 ▸ hx)
    case getexp =>
      rintro ⟨q, m, e, hx⟩ h0
      rw [hx] at h0 ⊢
      exact fGetexp_of_fin ht hx (mt fval_fin_eq_zero.mpr h0)
    case rcpe =>
      rintro ⟨q, m, e, hx⟩ h0
      rw [hx] at h0
      obtain ⟨v, ⟨hv, hnear⟩, hround⟩ := fRcpe_of_fin hf hx (mt fval_fin_eq_zero.mpr h0)
      rw [hx]
      exact ⟨v, hv, hnear, hround⟩
    case negative =>
      rintro ⟨q, m, e, hx⟩ h0
      rw [hx] at h0
      obtain rfl := neg_of_fval_lt_zero h0
      exact fRsqe_of_neg hx (mt fval_fin_eq_zero.mpr h0.ne)
    case rsqe =>
      rintro ⟨q, m, e, hx⟩ h0
      rw [hx] at h0
      obtain rfl := pos_of_fval_pos h0
      obtain ⟨v, hv, hpos, hnear, hround⟩ := fRsqe_of_fin hf hx (mt fval_fin_eq_zero.mpr h0.ne')
      rw [hx]
      exact ⟨v, hv, ⟨hpos, hnear⟩, hround⟩

end Sys2Proof.Machine
end

section
/-! SUPPORT. Exact sums: what a term adds on the grid, and what a sum of terms is (R91, R94). -/
namespace Sys2Proof.Machine

/-! ### Integers modulo a power of two -/

theorem natCast_wrapNat (n : Nat) (x : Int) : (wrapNat n x : Int) = x % 2 ^ n := by
  rw [wrapNat, Int.toNat_of_nonneg (Int.emod_nonneg _ (by positivity)), Nat.cast_pow, Nat.cast_ofNat]

/-- `sext` looks at the low `n` bits alone. -/
theorem sextInt_mod (n x : Nat) : sextInt n (x % 2 ^ n) = sextInt n x := by
  rw [sextInt, sextInt, Nat.mod_mod]

theorem natCast_mod_two_pow_mod (n x : Nat) : ((x % 2 ^ n : Nat) : Int) % 2 ^ n = x % 2 ^ n := by
  rw [Int.natCast_mod, Nat.cast_pow, Nat.cast_ofNat, Int.emod_emod_of_dvd _ (dvd_refl _)]

/-! ### One term (R91) -/

/-- A finite term adds, modulo 2^n, the integer nearest to it on the grid. -/
theorem gridTerm_spec (n : Nat) (neg : Bool) (m : Nat) (e E : Int) :
    ∃ k, GridTerm E (some (.fin neg m e)) k ∧ (gridTerm n neg m e E : Int) % 2 ^ n = k % 2 ^ n := by
  refine ⟨signedInt neg (roundMul .rne neg m e false E).1, ?_, ?_⟩
  · have hdiv : fval (.fin neg m e) / 2 ^ E = signed neg (m * 2 ^ e / 2 ^ E) := by
      rw [fval_fin, div_eq_mul_inv, div_eq_mul_inv]
      cases neg <;> simp
    rw [GridTerm, hdiv]
    exact (roundMul_spec .rne neg m e E).1
  · rw [gridTerm]
    split
    case isTrue h =>
      have hle : E ≤ e := by omega
      have hdvd : (2 : Int) ^ n ∣ signedInt neg (m * 2 ^ (e - E).toNat) := by
        have hpow : (2 : Int) ^ n ∣ (m * 2 ^ (e - E).toNat : Nat) := by
          push_cast
          exact Dvd.dvd.mul_left (pow_dvd_pow 2 (by omega)) _
        cases neg
        · exact hpow
        · exact hpow.neg_right
      rw [roundMul, if_pos hle, Int.emod_eq_zero_of_dvd hdvd]
      rfl
    case isFalse => rw [natCast_wrapNat, Int.emod_emod_of_dvd _ (dvd_refl _)]

/-- What one more term does to the special bits. -/
theorem addTerm_special (n : Nat) (E : Int) (s : XSum) (t : Option FVal) :
    ((addTerm n E s t).sp.nan = true ↔ s.sp.nan = true ∨ t = none ∨ ∃ g q p, t = some (.nan g q p)) ∧
    ((addTerm n E s t).sp.pinf = true ↔ s.sp.pinf = true ∨ t = some (.inf false)) ∧
    ((addTerm n E s t).sp.ninf = true ↔ s.sp.ninf = true ∨ t = some (.inf true)) := by
  match t with
  | none => simp [addTerm, orSpecial]
  | some (.nan ..) => simp [addTerm, orSpecial]
  | some (.inf false) => simp [addTerm, orSpecial]
  | some (.inf true) => simp [addTerm, orSpecial]
  | some (.fin ..) => simp [addTerm]

/-- What one more term adds to the value. -/
theorem addTerm_value (n : Nat) (E : Int) (s : XSum) (t : Option FVal) :
    ∃ k, GridTerm E t k ∧ ((addTerm n E s t).v : Int) % 2 ^ n = (s.v + k) % 2 ^ n := by
  match t with
  | none => exact ⟨0, rfl, by simp [addTerm]⟩
  | some (.nan ..) => exact ⟨0, rfl, by simp [addTerm]⟩
  | some (.inf _) => exact ⟨0, rfl, by simp [addTerm]⟩
  | some (.fin neg m e) =>
    obtain ⟨k, hk, hv⟩ := gridTerm_spec n neg m e E
    refine ⟨k, hk, ?_⟩
    rw [addTerm, natCast_mod_two_pow_mod, Nat.cast_add, Int.add_emod, hv, ← Int.add_emod]

/-! ### Sums of terms -/

theorem exactSum_zero (bits : Nat) (E : Int) (f : Nat → Option FVal) (s : XSum) : ExactSum bits E 0 f s s :=
  ⟨by simp, by simp, by simp, fun _ => 0, by simp, by simp⟩

/-- A sum of terms with one more. -/
theorem exactSum_succ {bits : Nat} {E : Int} {n : Nat} {f : Nat → Option FVal} {s t : XSum} (h : ExactSum bits E n f s t) :
    ExactSum bits E (n + 1) f s (addTerm bits E t (f n)) := by
  obtain ⟨hnan, hpinf, hninf, k, hk, hv⟩ := h
  obtain ⟨hnan', hpinf', hninf'⟩ := addTerm_special bits E t (f n)
  obtain ⟨j, hj, hv'⟩ := addTerm_value bits E t (f n)
  have hbelow : ∀ i < n, Function.update k n j i = k i := fun i hi => Function.update_of_ne hi.ne _ _
  refine ⟨?_, ?_, ?_, Function.update k n j, ?_, ?_⟩
  · rw [hnan', hnan, Nat.exists_lt_succ_right, or_assoc]
  · rw [hpinf', hpinf, Nat.exists_lt_succ_right, or_assoc]
  · rw [hninf', hninf, Nat.exists_lt_succ_right, or_assoc]
  · intro i hi
    rcases Nat.lt_succ_iff_lt_or_eq.mp hi with hi | rfl
    · rw [hbelow i hi]
      exact hk i hi
    · rwa [Function.update_self]
  · have hmap : (List.range n).map (Function.update k n j) = (List.range n).map k :=
      List.map_congr_left fun i hi => hbelow i (List.mem_range.mp hi)
    rw [hv', Int.add_emod, hv, ← Int.add_emod, List.range_succ, List.map_append, hmap, List.sum_append, List.map_singleton,
      List.sum_singleton, Function.update_self, add_assoc]

/-- Terms added in order are summed exactly. -/
theorem exactSum_foldl (bits : Nat) (E : Int) (f : Nat → Option FVal) (s : XSum) (n : Nat) :
    ExactSum bits E n f s ((List.range n).foldl (fun s i => addTerm bits E s (f i)) s) := by
  induction n with
  | zero => exact exactSum_zero bits E f s
  | succ n ih =>
    rw [List.range_succ, List.foldl_append]
    exact exactSum_succ ih

/-- A value kept in `bits` bits is the same sum. -/
theorem exactSum_mod {bits : Nat} {E : Int} {n : Nat} {f : Nat → Option FVal} {s t : XSum} (h : ExactSum bits E n f s t) :
    ExactSum bits E n f s { t with v := t.v % 2 ^ bits } := by
  obtain ⟨hnan, hpinf, hninf, k, hk, hv⟩ := h
  exact ⟨hnan, hpinf, hninf, k, hk, (natCast_mod_two_pow_mod bits t.v).trans hv⟩

theorem signed_xor_mul (g h : Bool) (r u : ℚ) : signed (xor g h) (r * u) = signed g r * signed h u := by
  cases g <;> cases h <;> simp

/-- The term that a product gives is the exact product (R91). -/
theorem isProduct_productTerm (x y : FVal) : IsProduct x y (productTerm x y) := by
  match x, y with
  | .nan .., _ => exact ⟨_, _, _, rfl⟩
  | .inf _, .nan .. => exact ⟨_, _, _, rfl⟩
  | .fin .., .nan .. => exact ⟨_, _, _, rfl⟩
  | .inf g, .inf h => simp [IsProduct, productTerm, isNaN, mulVals]
  | .inf g, .fin h m _ => simp [IsProduct, productTerm, isNaN, mulVals]
  | .fin g m _, .inf h => simp [IsProduct, productTerm, isNaN, mulVals]
  | .fin g m e, .fin h n d =>
    refine ⟨_, _, _, rfl, ?_⟩
    rw [fval_fin, fval_fin, fval_fin, ← signed_xor_mul, zpow_add₀ two_ne_zero, Nat.cast_mul, mul_mul_mul_comm]

/-- R157: the products and the lanes of a vector are summed into a container exactly. -/
theorem accumulations_exact (c : X128) (t : LaneType) (a b : Vec) : let w := ltWidth t
    let x := fun (i : Nat) => decodeF (ltFmt t) (lane w a i)
    let y := fun (i : Nat) => decodeF (ltFmt t) (lane w b i)
    (∃ f : Nat → Option FVal, (∀ i, i < lanes w → IsProduct (x i) (y i) (f i)) ∧
      ExactSum 125 c.e (lanes w) f c.sum (accumProducts t c a b).sum) ∧
    ExactSum 125 c.e (lanes w) (fun i => some (x i)) c.sum (accumSingles t c a).sum := by
  intro w x y
  exact ⟨⟨fun i => productTerm (x i) (y i), fun _ _ => isProduct_productTerm _ _, exactSum_foldl ..⟩, exactSum_foldl ..⟩

/-! ### Containers (R94) -/

theorem rawOf_lt (s : XSum) : rawOf s < 2 ^ 128 := by
  have := Nat.mod_lt s.v (Nat.two_pow_pos 125)
  have := s.sp.nan.toNat_lt
  have := s.sp.pinf.toNat_lt
  have := s.sp.ninf.toNat_lt
  unfold rawOf
  omega

/-- The raw bits hold the special bits, and the value in 125 bits. -/
theorem sumOfRaw_rawOf (s : XSum) : sumOfRaw (rawOf s) = { s with v := s.v % 2 ^ 125 } := by
  have hv := Nat.mod_lt s.v (Nat.two_pow_pos 125)
  have hnan := s.sp.nan.toNat_lt
  have hpinf := s.sp.pinf.toNat_lt
  have hninf := s.sp.ninf.toNat_lt
  have hbit : ∀ b : Bool, (b.toNat == 1) = b := by decide
  have hlow : rawOf s % 2 ^ 125 = s.v % 2 ^ 125 := by unfold rawOf; omega
  have h125 : rawOf s / 2 ^ 125 % 2 = s.sp.ninf.toNat := by unfold rawOf; omega
  have h126 : rawOf s / 2 ^ 126 % 2 = s.sp.pinf.toNat := by unfold rawOf; omega
  have h127 : rawOf s / 2 ^ 127 % 2 = s.sp.nan.toNat := by unfold rawOf; omega
  simp only [sumOfRaw, bitOf, Nat.shiftRight_eq_div_pow, hlow, h125, h126, h127, hbit]

/-- R288: XADD32 adds its term to the sum of the container, and leaves what is above the sum. -/
theorem xadd32Container_exact (m y : Nat) (e : Int) :
    ExactSum 125 e 1 (fun _ => some (decodeF fmtF32 y)) (x128OfNat m).sum (x128OfNat (xadd32Container m e y)).sum ∧
    xadd32Container m e y / 2 ^ 128 = m / 2 ^ 128 := by
  have hraw := rawOf_lt (addTerm 125 e (x128OfNat m).sum (some (decodeF fmtF32 y)))
  have hlow : xadd32Container m e y % 2 ^ 128 = rawOf (addTerm 125 e (x128OfNat m).sum (some (decodeF fmtF32 y))) := by
    rw [xadd32Container, Nat.add_mul_mod_self_left, Nat.mod_eq_of_lt hraw]
  constructor
  · have hsum : (x128OfNat (xadd32Container m e y)).sum = sumOfRaw (xadd32Container m e y % 2 ^ 128) := rfl
    rw [hsum, hlow, sumOfRaw_rawOf]
    exact exactSum_mod (exactSum_succ (f := fun _ => some (decodeF fmtF32 y)) (exactSum_zero ..))
  · rw [xadd32Container, Nat.add_mul_div_left _ _ (Nat.two_pow_pos 128), Nat.div_eq_of_lt hraw, Nat.zero_add]

/-- R93: a readout rounds the value once, or gives what the special bits say. -/
theorem readout_readsOut {n : Nat} {f : FFmt} (mode : Mode) (z : XSum) (e : Int) (hf : f ∈ floatFormats) :
    ReadsOut f mode z.sp (sextInt n z.v * (2 : ℚ) ^ e) (readout n f mode z e) := by
  obtain ⟨v, nan, pinf, ninf⟩ := z
  refine ⟨?nan, ?inf, ?finite⟩
  case nan =>
    intro h
    have hnan : (nan || (pinf && ninf)) = true := by simpa using h
    rw [readout, if_pos hnan]
  case inf =>
    rintro rfl hp
    obtain rfl : pinf = !ninf := hp
    cases ninf <;> rfl
  case finite =>
    rintro rfl rfl rfl
    have hval : fval (.fin (decide (sextInt n v < 0)) (sextInt n v).natAbs e) = sextInt n v * 2 ^ e := by
      rw [fval_fin, signed_mul, ← cast_signedInt, signedInt_natAbs]
    have hres : readout n f mode ⟨v, false, false, false⟩ e =
        roundFin f mode (decide (sextInt n v < 0)) (sextInt n v).natAbs e := rfl
    rw [← hval, hres]
    generalize sextInt n v = x
    constructor
    · intro h0
      rw [fval_fin_eq_zero, Int.natAbs_eq_zero] at h0
      rw [h0]
      rfl
    · exact fun h0 => roundingChoosesTheNearest f mode _ _ _ hf (mt fval_fin_eq_zero.mpr h0)

end Sys2Proof.Machine
end

section
/-! SUPPORT. The greatest exponents of XEXPP and XEXPS, and the claim on the exact accumulations (R156-R159). -/
namespace Sys2Proof.Machine

/-! ### Greatest exponents (R159) -/

/-- The exponent of a finite number that is not zero; no other value has one. -/
theorem log2Val_eq_some_iff {x : FVal} {k : Int} :
    log2Val x = some k ↔ (∃ g m e, x = .fin g m e) ∧ (2 : ℚ) ^ k ≤ |fval x| ∧ |fval x| < (2 : ℚ) ^ (k + 1) := by
  match x with
  | .nan .. => simp [log2Val]
  | .inf _ => simp [log2Val]
  | .fin g m e =>
    rw [fval_fin, abs_signed g (by positivity)]
    rcases eq_or_ne m 0 with rfl | hm
    · simp [log2Val, (zpow_pos (zero_lt_two' ℚ) k).not_ge]
    · rw [← not_le (a := (2 : ℚ) ^ (k + 1)), ← le_add_log2_iff hm, ← le_add_log2_iff hm]
      simp only [log2Val, if_neg hm, Option.some_inj, FVal.fin.injEq, exists_eq_left', exists_eq', true_and, exists_and_left]
      omega

/-- The greatest of the candidates `g i` below `n`, none where there is none. -/
def greatest (g : Nat → Option Int) (n : Nat) : Option Int := (List.range n).foldl (fun acc i => maxOpt acc (g i)) none

theorem greatest_succ (g : Nat → Option Int) (n : Nat) : greatest g (n + 1) = maxOpt (greatest g n) (g n) := by
  rw [greatest, List.range_succ, List.foldl_append]
  rfl

theorem maxOpt_none (a : Option Int) : maxOpt a none = a := by
  cases a <;> rfl

theorem maxOpt_eq_none {a b : Option Int} : maxOpt a b = none ↔ a = none ∧ b = none := by
  cases a <;> cases b <;> simp [maxOpt]

theorem maxOpt_eq_some {a b : Option Int} {p : Int} (h : maxOpt a b = some p) :
    (a = some p ∨ b = some p) ∧ (∀ j, a = some j → j ≤ p) ∧ ∀ j, b = some j → j ≤ p := by
  match a, b with
  | none, b =>
    obtain rfl : b = some p := h
    simp
  | some x, none =>
    obtain rfl : x = p := Option.some.inj h
    simp
  | some x, some y =>
    obtain rfl : (if x < y then y else x) = p := Option.some.inj h
    simp only [Option.some_inj, forall_eq']
    split <;> omega

theorem greatest_eq_none {g : Nat → Option Int} {n : Nat} : greatest g n = none ↔ ∀ i < n, g i = none := by
  induction n with
  | zero => simp [greatest]
  | succ n ih => rw [greatest_succ, maxOpt_eq_none, ih, Nat.forall_lt_succ_right]

theorem greatest_eq_some {g : Nat → Option Int} {n : Nat} {p : Int} (h : greatest g n = some p) :
    (∃ i < n, g i = some p) ∧ ∀ i < n, ∀ j, g i = some j → j ≤ p := by
  induction n generalizing p with
  | zero => cases h
  | succ n ih =>
    rw [greatest_succ] at h
    obtain ⟨hmem, hbelow, hlast⟩ := maxOpt_eq_some h
    rw [Nat.exists_lt_succ_right, Nat.forall_lt_succ_right]
    refine ⟨hmem.imp_left fun h => (ih h).1, fun i hi j hj => ?_, hlast⟩
    cases hq : greatest g n with
    | none =>
      rw [greatest_eq_none.mp hq i hi] at hj
      cases hj
    | some q => exact ((ih hq).2 i hi j hj).trans (hbelow q hq)

/-- The exponent of a product: the sum of those of its factors, where both have one. -/
def productExp (x y : FVal) : Option Int := (log2Val x).bind fun i => (log2Val y).map (i + ·)

theorem productExp_eq_some {x y : FVal} {p : Int} : productExp x y = some p ↔ ∃ j k, log2Val x = some j ∧ log2Val y = some k ∧
    j + k = p := by
  simp [productExp, Option.bind_eq_some_iff]

theorem maxExpSingles_eq (a : Vec) : maxExpSingles a = greatest (fun i => log2Val (decodeF fmtF32 (lane 32 a i))) 64 := rfl

theorem maxExpProducts_eq (a b : Vec) : maxExpProducts a b =
    greatest (fun i => productExp (decodeF fmtF32 (lane 32 a i)) (decodeF fmtF32 (lane 32 b i))) 64 := by
  rw [maxExpProducts, greatest]
  congr 1
  funext acc i
  unfold productExp
  cases log2Val (decodeF fmtF32 (lane 32 a i)) with
  | none => exact (maxOpt_none acc).symm
  | some x =>
    cases log2Val (decodeF fmtF32 (lane 32 b i)) with
    | none => exact (maxOpt_none acc).symm
    | some y => rfl

/-- R159: the greatest exponents of the finite lanes that are not zero, and of the products of such lanes. -/
theorem greatest_exponents (a b : Vec) (p : Int) :
    let lg := fun (v : Vec) (i : Nat) (k : Int) => let x := decodeF fmtF32 (lane 32 v i)
      (∃ g m e, x = .fin g m e) ∧ (2 : ℚ) ^ k ≤ |fval x| ∧ |fval x| < (2 : ℚ) ^ (k + 1)
    (maxExpSingles a = some p → (∃ i, i < 64 ∧ lg a i p) ∧ ∀ i j, i < 64 → lg a i j → j ≤ p) ∧
    (maxExpSingles a = none → ∀ i j, i < 64 → ¬ lg a i j) ∧
    (maxExpProducts a b = some p → (∃ i j k, i < 64 ∧ lg a i j ∧ lg b i k ∧ p = j + k) ∧
      ∀ i j k, i < 64 → lg a i j → lg b i k → j + k ≤ p) ∧
    (maxExpProducts a b = none → ∀ i j k, i < 64 → ¬ (lg a i j ∧ lg b i k)) := by
  intro lg
  have hlg : ∀ v i k, lg v i k ↔ log2Val (decodeF fmtF32 (lane 32 v i)) = some k := fun _ _ _ => log2Val_eq_some_iff.symm
  simp only [hlg, maxExpSingles_eq, maxExpProducts_eq]
  refine ⟨fun h => ?single, fun h i j hi => ?noSingle, fun h => ?product, fun h i j k hi => ?noProduct⟩
  case single =>
    obtain ⟨hmem, hle⟩ := greatest_eq_some h
    exact ⟨hmem, fun i j hi => hle i hi j⟩
  case noSingle => simp [greatest_eq_none.mp h i hi]
  case product =>
    obtain ⟨⟨i, hi, hp⟩, hle⟩ := greatest_eq_some h
    obtain ⟨j, k, hj, hk, rfl⟩ := productExp_eq_some.mp hp
    exact ⟨⟨i, j, k, hi, hj, hk, rfl⟩, fun i j k hi hj hk => hle i hi _ (productExp_eq_some.mpr ⟨j, k, hj, hk, rfl⟩)⟩
  case noProduct =>
    rintro ⟨hj, hk⟩
    have hnone := greatest_eq_none.mp h i hi
    rw [productExp_eq_some.mpr ⟨j, k, hj, hk, rfl⟩] at hnone
    cases hnone

/-! ### The instructions (R156-R159) -/

/-- A VXACC sub-code completes with its container. -/
theorem vectorResult_of_xaccOp {i : Instr} {s : State} {d : VReg} {f : Act → X128} {z : X128} (he : exec i s = xaccOp i d f s)
    (hz : f s.act0 = z) : VectorResult s i d (vecOfX128 z) 6 :=
  completes_of_issue (fun t s => resultV s d (vecOfX128 (f s.act0)) 6 t) he fun t => by rw [hz]

theorem raiseE_some (c : X128) (p margin : Int) : raiseE c (some p) margin = { c with e := max c.e (p - margin) } := by
  rw [raiseE, max_def_lt]

/-- R158: XADD adds two containers of one grid, and traps XEXP on two grids. -/
theorem xadd_result (s : State) (k : KSel) (d a b : VReg) : let x := x128OfVec (readV s.act0 a)
    let y := x128OfVec (readV s.act0 b)
    (x.e = y.e → VectorResult s (.xadd k d a b) d (vecOfX128 (addX128 x y)) 6) ∧
    (x.e ≠ y.e → Traps s (.xadd k d a b) 0x18 0 (wrapNat 32 x.e + 2 ^ 32 * wrapNat 32 y.e)) :=
  ⟨fun h => completes_of_issue _ (exec_xadd k d a b s) fun _ => if_pos h,
    fun h => completes_of_issue _ (exec_xadd k d a b s) fun _ => if_neg h⟩

/-- R159: XEXPP and XEXPS raise E to the greatest exponent less the margin, where there is one. -/
theorem xexp_results (s : State) (k : KSel) (d a b : VReg) : let c := x128OfVec (readV s.act0 d)
    let gives := fun (i : Instr) (z : X128) => VectorResult s i d (vecOfX128 z) 6
    (maxExpProducts (readV s.act0 a) (readV s.act0 b) = none → gives (.xexpp k d a b) c) ∧
    (∀ p, maxExpProducts (readV s.act0 a) (readV s.act0 b) = some p → gives (.xexpp k d a b) { c with e := max c.e (p - 98) }) ∧
    (maxExpSingles (readV s.act0 a) = none → gives (.xexps k d a) c) ∧
    (∀ p, maxExpSingles (readV s.act0 a) = some p → gives (.xexps k d a) { c with e := max c.e (p - 99) }) := by
  intro c gives
  refine ⟨fun h => ?_, fun p h => ?_, fun h => ?_, fun p h => ?_⟩
  · exact vectorResult_of_xaccOp (exec_xexpp k d a b s) (by rw [h]; rfl)
  · exact vectorResult_of_xaccOp (exec_xexpp k d a b s) (by rw [h, raiseE_some])
  · exact vectorResult_of_xaccOp (exec_xexps k d a s) (by rw [h]; rfl)
  · exact vectorResult_of_xaccOp (exec_xexps k d a s) (by rw [h, raiseE_some])

/-- Settles O14: the containers the instructions give, what their sums are, their readouts, and the greatest exponents. -/
theorem exactAccumulation : Obligations.ExactAccumulation := by
  unfold Obligations.ExactAccumulation
  refine ⟨fun s k d a b => ?instructions, fun c t a b _ => ?sums, fun n m y e f mode z _ hf => ?readouts, greatest_exponents⟩
  case instructions =>
    have hgrid : sextInt 32 (readS s.act0 a).toNat = (BitVec.ofNat 32 (readS s.act0 a).toNat).toInt := by
      rw [← sextInt_toNat, BitVec.toNat_ofNat, sextInt_mod]
    obtain ⟨hadd, htrap⟩ := xadd_result s k d a b
    exact ⟨vectorResult_of_xaccOp (exec_vxaccP32 k d a b s) rfl, vectorResult_of_xaccOp (exec_vxaccS32 k d a s) rfl,
      vectorResult_of_xaccOp (exec_vxaccP64 k d a b s) rfl, vectorResult_of_xaccOp (exec_vxaccS64 k d a s) rfl,
      vectorResult_of_xaccOp (exec_xinit k d a s) (by rw [hgrid]), hadd, htrap, xexp_results s k d a b⟩
  case sums =>
    obtain ⟨hproducts, hsingles⟩ := accumulations_exact c t a b
    exact ⟨hproducts, hsingles, rfl, rfl⟩
  case readouts =>
    exact ⟨readout_readsOut mode z e hf, xadd32Container_exact m y e⟩

end Sys2Proof.Machine
end
